-- ==== Sys2Proof/Word.lean ====
section
/-! DEFINITION. The word widths of the siggen CORE (spec 00_scope.md R8, 30_encoding.md R90, R91). -/

namespace Sys2Proof

/-- A command word or a response word, moved whole over the host port (R67, R90, R91). -/
abbrev Word64 := BitVec 64

/-- The DATA field of a command and the RESULT field of a response (R90, R91). -/
abbrev Word40 := BitVec 40

/-- A binary value, a frequency in Hz, a Q25.7 frequency, or the Q2.30 ratio (R8). -/
abbrev Word32 := BitVec 32

/-- The significant bits of a tuning word (R8). -/
abbrev Word28 := BitVec 28

/-- A word sent to the DDS chip, or the value of a raw send (R69). -/
abbrev Word16 := BitVec 16

/-- OP, AUX, STATUS, or one packed decimal digit (R90, R91, R96). -/
abbrev Nibble := BitVec 4

end Sys2Proof
end

