-- ==== Sys2Proof/Syntax.lean ====
section
/-! DEFINITION. The commands of the siggen CORE: one constructor per row of spec/opcode_table.json (30_encoding.md R93), with
the operands of R95. -/

namespace Sys2Proof

/-- The twelve host commands. -/
inductive Instr where
  /-- BCD.ENC8 (R136): encode `v` to 8 digits. -/
  | bcdEnc8 (v : Word32)
  /-- BCD.ENC10 (R137): encode `v` to 10 digits. -/
  | bcdEnc10 (v : Word32)
  /-- BCD.DEC8 (R138): decode the 8 packed digits `d`. -/
  | bcdDec8 (d : Word32)
  /-- BCD.DEC10 (R139): decode the 10 packed digits `d`. -/
  | bcdDec10 (d : Word40)
  /-- TUNE.INT (R167): tuning word of the integer frequency `f` in Hz. -/
  | tuneInt (f : Word32)
  /-- TUNE.FRAC (R168): tuning word of the Q25.7 frequency `q`. -/
  | tuneFrac (q : Word32)
  /-- DDS.SETI (R196): frequency change, integer Hz. -/
  | ddsSeti (f : Word32)
  /-- DDS.SETF (R197): frequency change, Q25.7. -/
  | ddsSetf (q : Word32)
  /-- DDS.INIT (R195). -/
  | ddsInit
  /-- SBL.SEND (R241): send the low `w` bits of `v`, 1 ≤ w ≤ 16. -/
  | sblSend (w : Nat) (v : Word16)
  /-- SBL.CS (R242): assert (`true`) or deassert (`false`) chip-select. -/
  | sblCs (l : Bool)
  /-- DEB.READ (R279): read the published state. -/
  | debRead
deriving DecidableEq, Repr

end Sys2Proof
end

