-- ==== Sys2Proof/WellFormed.lean ====
section
/-! DEFINITION. Which instruction terms a command word can stand for. Digit values, integer frequencies above the Q25.7 range and
the order of commands are no matter of form: the block answers those with a STATUS (R92). -/

namespace Sys2Proof

/-- The width of a raw send is 1..16 (R95, R232); every other operand is held in a type of exactly its field's width. -/
def Instr.wf : Instr → Bool
  | .bcdEnc8 _ => true
  | .bcdEnc10 _ => true
  | .bcdDec8 _ => true
  | .bcdDec10 _ => true
  | .tuneInt _ => true
  | .tuneFrac _ => true
  | .ddsSeti _ => true
  | .ddsSetf _ => true
  | .ddsInit => true
  | .sblSend w _ => decide (1 ≤ w) && decide (w ≤ 16)
  | .sblCs _ => true
  | .debRead => true

end Sys2Proof
end

