-- ==== Sys2Proof/Decode.lean ====
section
/-! DEFINITION. The command word CMD64 (30_encoding.md R90): its fields, the decoder (R94, R95, R97), and after it the encoder
(R100). Every command is one 64-bit unit, so no byte order arises (R67). -/

namespace Sys2Proof

/-- OP = CMD[63:60]. -/
def cmdOp (c : Word64) : Nibble := c.extractLsb' 60 4

/-- AUX = CMD[59:56]. -/
def cmdAux (c : Word64) : Nibble := c.extractLsb' 56 4

/-- RSVD = CMD[55:40]. -/
def cmdRsvd (c : Word64) : BitVec 16 := c.extractLsb' 40 16

/-- DATA = CMD[39:0]. -/
def cmdDataField (c : Word64) : Word40 := c.extractLsb' 0 40

/-- Why the decoder turns a word away: the two decode errors of R92. -/
inductive Reject where
  /-- OP is 0x0 or 0xB-0xF (R98). -/
  | illegal
  /-- OP is assigned and a reserved bit of R97 is 1. -/
  | rsvd
deriving DecidableEq, Repr

/-- What a 64-bit word decodes to: "either one operation of rule R93 or one status" (R94). -/
inductive Decoded where
  | instr (i : Instr)
  | reject (r : Reject)
deriving DecidableEq, Repr

/-- One row of R93 for an assigned OP: whether a reserved bit of R97 besides CMD[55:40] is set, and the operation with its
operands assembled by R95. -/
structure Row where
  reserved : Bool
  instr : Instr
deriving DecidableEq, Repr

/-- DATA[39:32] ≠ 0, reserved for every operation with a 32-bit operand (R97). -/
def highDataSet (data : Word40) : Bool := data.extractLsb' 32 8 != 0#8

/-- The low 32 bits of DATA, the operand of most commands (R95). -/
def dataLow32 (data : Word40) : Word32 := data.extractLsb' 0 32

/-- The opcode map (R93) with the operands of R95 and the reserved bits of R97; nothing for an unassigned OP. -/
def opcodeRow (op aux : Nibble) (data : Word40) : Option Row :=
  if op = 0x1#4 then
    some (if aux.getLsbD 0
      then ⟨aux.extractLsb' 1 3 != 0#3 || highDataSet data, .bcdEnc10 (dataLow32 data)⟩
      else ⟨aux.extractLsb' 1 3 != 0#3 || highDataSet data, .bcdEnc8 (dataLow32 data)⟩)
  else if op = 0x2#4 then
    some (if aux.getLsbD 0
      then ⟨aux.extractLsb' 1 3 != 0#3, .bcdDec10 data⟩
      else ⟨aux.extractLsb' 1 3 != 0#3 || highDataSet data, .bcdDec8 (dataLow32 data)⟩)
  else if op = 0x3#4 then some ⟨aux != 0#4 || highDataSet data, .tuneInt (dataLow32 data)⟩
  else if op = 0x4#4 then some ⟨aux != 0#4 || highDataSet data, .tuneFrac (dataLow32 data)⟩
  else if op = 0x5#4 then some ⟨aux != 0#4 || highDataSet data, .ddsSeti (dataLow32 data)⟩
  else if op = 0x6#4 then some ⟨aux != 0#4 || highDataSet data, .ddsSetf (dataLow32 data)⟩
  else if op = 0x7#4 then some ⟨aux != 0#4 || data != 0#40, .ddsInit⟩
  else if op = 0x8#4 then
    some ⟨data.extractLsb' 16 24 != 0#24, .sblSend (aux.toNat + 1) (data.extractLsb' 0 16)⟩
  else if op = 0x9#4 then
    some ⟨aux.extractLsb' 1 3 != 0#3 || data != 0#40, .sblCs (aux.getLsbD 0)⟩
  else if op = 0xA#4 then some ⟨aux != 0#4 || data != 0#40, .debRead⟩
  else none

/-- The checks of R94 in their order: ILLEGAL, then RSVD. -/
def decode (c : Word64) : Decoded :=
  match opcodeRow (cmdOp c) (cmdAux c) (cmdDataField c) with
  | none => .reject .illegal
  | some row =>
    if cmdRsvd c != 0#16 || row.reserved then .reject .rsvd
    else .instr row.instr

/-- A command word from its fields, RSVD = 0 (R90, R100). -/
def cmdWord (op aux : Nibble) (data : Word40) : Word64 := op ++ aux ++ 0#16 ++ data

/-- The encodings of R100: the word of a well-formed instruction. -/
def encode : Instr → Word64
  | .bcdEnc8 v => cmdWord 0x1#4 0#4 (v.zeroExtend 40)
  | .bcdEnc10 v => cmdWord 0x1#4 1#4 (v.zeroExtend 40)
  | .bcdDec8 d => cmdWord 0x2#4 0#4 (d.zeroExtend 40)
  | .bcdDec10 d => cmdWord 0x2#4 1#4 d
  | .tuneInt f => cmdWord 0x3#4 0#4 (f.zeroExtend 40)
  | .tuneFrac q => cmdWord 0x4#4 0#4 (q.zeroExtend 40)
  | .ddsSeti f => cmdWord 0x5#4 0#4 (f.zeroExtend 40)
  | .ddsSetf q => cmdWord 0x6#4 0#4 (q.zeroExtend 40)
  | .ddsInit => cmdWord 0x7#4 0#4 0#40
  | .sblSend w v => cmdWord 0x8#4 (BitVec.ofNat 4 (w - 1)) (v.zeroExtend 40)
  | .sblCs l => cmdWord 0x9#4 (if l then 1#4 else 0#4) 0#40
  | .debRead => cmdWord 0xA#4 0#4 0#40

/-- A command word as spec/opcode_table.json numbers its bits: the table's one 64-bit word, bit 0 least significant. -/
def tableWord (nbits w : Nat) : Word64 := BitVec.ofNat 64 (w % 2 ^ nbits)

/-- The instruction the decoder reads from a table word of `nbits` bits, the bits above them 0. -/
def decodeTableWord (nbits w : Nat) : Option Instr :=
  match decode (tableWord nbits w) with
  | .instr i => some i
  | .reject _ => none

end Sys2Proof
end

