-- ==== Sys2Proof/Config.lean ====
section
/-! DEFINITION. What one block has fixed for its life: the parameters of 00_scope.md R9 with their legal values (R10), the
spec's defaults, and the input ports of 10_state.md R45, whose levels the environment chooses freely. -/

namespace Sys2Proof

/-- The parameters of R9, but for T_SAMPLE, which no rule reads (log entry 12).
A model takes each as an argument (R9): here the state carries the record and no step writes it (R47). -/
structure Config where
  /-- RATIO: 2^28 / F_REF in Q2.30 (R161). -/
  ratio : Word32
  /-- FREQ_TAG0, FREQ_TAG1: tag of a frequency word for set 0, set 1. -/
  freqTag0 : Word16
  freqTag1 : Word16
  /-- PHASE_TAG0, PHASE_TAG1: tag of a phase word for set 0, set 1. -/
  phaseTag0 : Word16
  phaseTag1 : Word16
  /-- CTRL_B28: control-word base. -/
  ctrlB28 : Word16
  /-- CTRL_RESET: control-word output-reset bit. -/
  ctrlReset : Word16
  /-- FSEL_BIT, PSEL_BIT: control-word bit positions that select the output's frequency and phase register. -/
  fselBit : Nat
  pselBit : Nat
  /-- TH_HI, TH_LO: hysteresis thresholds (R274). -/
  thHi : Nat
  thLo : Nat
  /-- SYNC_STAGES: raw-input synchroniser depth (R43). -/
  syncStages : Nat
  /-- RAW_ACTIVE_HIGH: the synchronised level that means asserted (R270). -/
  rawActiveHigh : Bool
  /-- Serial timing in clock cycles (R233-R236). -/
  tSu : Nat
  tLo : Nat
  tHi : Nat
  tCss : Nat
  tCsh : Nat
  tGap : Nat
  /-- LAT_COMPUTE, LAT_START: command latencies in clock cycles (R105). -/
  latCompute : Nat
  latStart : Nat
deriving DecidableEq, Repr, Inhabited

/-- The legal parameter values of R10. Every claim that needs one takes this as a premise: "A configuration outside these
ranges is not modelled". PHASE_TAG1 alone may have bit 13 set, as the spec's own default 0xE000 has (log entry 4). -/
structure Config.Legal (c : Config) : Prop where
  freqTag0_low : c.freqTag0.extractLsb' 0 14 = 0
  freqTag1_low : c.freqTag1.extractLsb' 0 14 = 0
  phaseTag0_low : c.phaseTag0.extractLsb' 0 14 = 0
  phaseTag1_low : c.phaseTag1.extractLsb' 0 13 = 0
  fsel_lt : c.fselBit < 16
  psel_lt : c.pselBit < 16
  fsel_ne_psel : c.fselBit ≠ c.pselBit
  fsel_clear : c.ctrlB28.getLsbD c.fselBit = false
  psel_clear : c.ctrlB28.getLsbD c.pselBit = false
  thLo_ge : 8 ≤ c.thLo
  thLo_lt : c.thLo < c.thHi
  thHi_le : c.thHi ≤ 163
  sync_pos : 1 ≤ c.syncStages
  tSu_pos : 1 ≤ c.tSu
  tLo_pos : 1 ≤ c.tLo
  tHi_pos : 1 ≤ c.tHi
  tCss_pos : 1 ≤ c.tCss
  tCsh_pos : 1 ≤ c.tCsh
  tGap_pos : 1 ≤ c.tGap
  latCompute_pos : 1 ≤ c.latCompute

/-- The defaults of R9, "the value this hardware takes". The six T_* are OPEN: they stand at the spec's reference set REF, and
LAT_START = 0 is that of its vectors, LAT_COMPUTE = 1 the least legal value (DESIGN CHOICE, log entry 2). -/
def Config.default : Config where
  ratio := 0xE5109EC2#32
  freqTag0 := 0x4000#16
  freqTag1 := 0x8000#16
  phaseTag0 := 0xC000#16
  phaseTag1 := 0xE000#16
  ctrlB28 := 0x2000#16
  ctrlReset := 0x0100#16
  fselBit := 11
  pselBit := 10
  thHi := 160
  thLo := 96
  syncStages := 2
  rawActiveHigh := true
  tSu := 1
  tLo := 1
  tHi := 1
  tCss := 1
  tCsh := 1
  tGap := 1
  latCompute := 1
  latStart := 0

/-- D_BIT of R233: the cycles of one `Bit` event. -/
def Config.dBit (c : Config) : Nat := c.tSu + c.tLo + c.tHi

/-- The levels of the input ports during one clock cycle (R45). `clk` is not among them: one step is one rising edge. -/
structure PortIn where
  rst : Bool
  cmdValid : Bool
  cmdData : Word64
  rspReady : Bool
  rawIn : Bool
  debTick : Bool
deriving DecidableEq, Repr, Inhabited

/-- A cycle in which nothing is asked of a block with the default polarity: every input 0. -/
def PortIn.quiet : PortIn where
  rst := false
  cmdValid := false
  cmdData := 0#64
  rspReady := false
  rawIn := false
  debTick := false

/-- FREE VALUE (log entry 1): the input levels of a cycle that nobody has placed, by the number of the cycle. Nothing
constrains it: host, platform and pushbutton may do anything in any cycle (R103, R271, R341, R350). -/
opaque Config.freeInput : Nat → PortIn

/-- The output ports during one clock cycle (R45). -/
structure PortOut where
  cmdReady : Bool
  rspValid : Bool
  rspData : Word64
  csN : Bool
  sclk : Bool
  sdata : Bool
deriving DecidableEq, Repr, Inhabited

/-- FREE VALUE (log entry 11): the output ports of a cycle before the first reset, by the number of the cycle. "Before the first reset
... every output port holds an unspecified value, and `cmd_ready` and `rsp_valid` may be 0 or 1" (R342). -/
opaque Config.freeOutputs : Nat → PortOut

end Sys2Proof
end

