-- ==== Sys2Proof/Machine/State.lean ====
section
/-! DEFINITION. The state of the siggen CORE (10_state.md R32, R40-R43) as plain data, and the state right after reset. -/

namespace Sys2Proof.Machine

/-- No step of the block stops it: "The block has no traps, no exceptions in the processor sense and no halt state" (R300).
So no fault reason exists. -/
inductive Fault
deriving DecidableEq, Repr

/-- Why the model gives a command no meaning. -/
inductive Refusal where
  /-- Raised by a dispatch arm that has no meaning yet, of which there is none; safe, since nothing is claimed of it. -/
  | notModelled (mnemonic : String)
deriving DecidableEq, Repr

/-- One of the DDS chip's two register sets (R190): set 0 is set A, set 1 is set B. An explicit enumerated value (R202). -/
inductive RegSet where
  | set0
  | set1
deriving DecidableEq, Repr, Inhabited

/-- The other set: `1 - s`. -/
def RegSet.other : RegSet → RegSet
  | .set0 => .set1
  | .set1 => .set0

/-- The selector as the number the words and the result carry (R191, R196). -/
def RegSet.bit : RegSet → BitVec 1
  | .set0 => 0#1
  | .set1 => 1#1

/-- The three serial events of R231. -/
inductive SerialEvent where
  | csLow
  | csHigh
  | bit (b : Bool)
deriving DecidableEq, Repr

/-- The part of a serial event a clock cycle lies in (R41). -/
inductive Phase where
  /-- R233: SDATA = b, SCLK = 1, for T_SU cycles. -/
  | bitSetup (b : Bool)
  /-- R233: SCLK = 0, for T_LO cycles. -/
  | bitLow (b : Bool)
  /-- R233: SCLK = 1 again, for T_HI cycles. -/
  | bitHigh (b : Bool)
  /-- R234: stalled until GAP_CNT = T_GAP. -/
  | gapWait
  /-- R234: CS_N = 0, for T_CSS cycles. -/
  | csSelected
  /-- R235: unchanged for T_CSH cycles. -/
  | csHold
  /-- R235: CS_N = 1, for one cycle. -/
  | csReleased
deriving DecidableEq, Repr

/-- How far the command in progress is. -/
inductive Pos where
  /-- Before the first serial event, or before the response of a command without events (R105, R237): `left` more cycles
  after this one. -/
  | latency (left : Nat)
  /-- Inside a serial event: `left` more cycles of this phase after this one. -/
  | inEvent (p : Phase) (left : Nat)
deriving DecidableEq, Repr

/-- What completion writes (R195, R196, R237, D40): the response and the protocol's two bits. -/
structure Commit where
  rsp : Word64
  sel : RegSet
  inited : Bool
deriving DecidableEq, Repr

/-- A command in progress: where it is, the serial events not begun, and what completion writes (R41, "its encoding is
free"). -/
structure Job where
  pos : Pos
  events : List SerialEvent
  commit : Commit
deriving DecidableEq, Repr

/-- ENG of R32 and R40: IDLE, EXEC, RESP. EXEC carries the progress that the block holds only then (R41). -/
inductive Eng where
  | idle
  | exec (j : Job)
  | resp
deriving DecidableEq, Repr, Inhabited

/-- The whole state. The first twelve fields are the rows of R32 (the progress of R41 stands inside `eng`). -/
structure State where
  /-- SEL: the set the next frequency change loads (R33). -/
  sel : RegSet
  /-- INITED: a DDS.INIT has completed since reset (R35). -/
  inited : Bool
  /-- ACC: the debounce filter's accumulator (R36). -/
  acc : BitVec 8
  /-- PUB: the published debounced state, `true` = asserted (R37). -/
  pub : Bool
  /-- CS_N, SCLK, SDATA: the serial lines (R38). -/
  csN : Bool
  sclk : Bool
  sdata : Bool
  /-- GAP_CNT: cycles CS_N has been high, saturating at T_GAP (R42). -/
  gapCnt : Nat
  /-- SYNC: the raw-input synchroniser, stage 0 first (R43). -/
  sync : List Bool
  /-- ENG, with the serial engine's progress (R40, R41). -/
  eng : Eng
  /-- CMD: the accepted command word. -/
  cmd : Word64
  /-- RSP: the response word. -/
  rsp : Word64
  /-- The event list of the last accepted command (R14, `emit e`), in order. -/
  emitted : List SerialEvent
  /-- The configuration of R9: no step writes it (R47). -/
  cfg : Config
  /-- MODEL's own: the input levels of the coming cycles, this cycle's first (log entry 1). -/
  inputs : List PortIn
  /-- MODEL's own: the number of cycles so far, which picks the free input levels once `inputs` has run out (log entry 1). -/
  clock : Nat
  /-- MODEL's own: a cycle with `rst` = 1 has been since power was applied. Until then no rule holds (R342; log entry 11). -/
  beenReset : Bool
deriving DecidableEq, Repr, Inhabited

/-- The level of `raw_in` that means released: 1 - RAW_ACTIVE_HIGH (R32). -/
def releasedLevel (c : Config) : Bool := !c.rawActiveHigh

/-- The state right after reset under configuration `c`: every row of R32 at its reset value. Nothing is placed on the
ports. -/
def State.resetWith (c : Config) : State where
  sel := .set0
  inited := false
  acc := 0#8
  pub := false
  csN := true
  sclk := true
  sdata := false
  gapCnt := 0
  sync := List.replicate c.syncStages (releasedLevel c)
  eng := .idle
  cmd := 0#64
  rsp := 0#64
  emitted := []
  cfg := c
  inputs := []
  clock := 0
  beenReset := true

/-- The machine right after reset with the spec's default parameters. -/
def State.reset : State := State.resetWith Config.default

end Sys2Proof.Machine

namespace Sys2Proof

/-- FREE VALUE (log entry 11): what the elements of R32 hold in a cycle before the first reset, by the number of the cycle. "A model
treats each element as any value of its width until the first cycle with `rst` = 1" (R342). -/
opaque Config.freeElements : Nat → Machine.State

end Sys2Proof
end

