-- ==== Sys2Proof/Machine/Flags.lean ====
section
/-! DEFINITION. The block has no condition codes and no sticky status bits (10_state.md R39): the STATUS field of each response is
the only status indication. Here are the STATUS codes (30_encoding.md R92) and the response word RSP64 (R91). -/

namespace Sys2Proof.Machine

/-- The STATUS values that occur; 6-15 are never produced (R92). -/
inductive Status where
  | ok
  | illegal
  | rsvd
  | digit
  | range
  | noinit
deriving DecidableEq, Repr

/-- The codes of R92. -/
def Status.code : Status → Nibble
  | .ok => 0#4
  | .illegal => 1#4
  | .rsvd => 2#4
  | .digit => 3#4
  | .range => 4#4
  | .noinit => 5#4

/-- The status of a word the decoder turns away (R94). -/
def Status.ofReject : Reject → Status
  | .illegal => .illegal
  | .rsvd => .rsvd

/-- RSP64 (R91): OP copied from the command, STATUS, sixteen zeros, RESULT; RESULT is 0 whenever STATUS is not OK. -/
def rspWord (op : Nibble) (st : Status) (result : Word40) : Word64 :=
  op ++ st.code ++ 0#16 ++ (if st = .ok then result else 0#40)

/-- RSP[63:60]. -/
def rspOp (r : Word64) : Nibble := r.extractLsb' 60 4

/-- RSP[59:56]. -/
def rspStatus (r : Word64) : Nibble := r.extractLsb' 56 4

/-- RSP[39:0]. -/
def rspResult (r : Word64) : Word40 := r.extractLsb' 0 40

end Sys2Proof.Machine
end

