-- ==== Sys2Proof/Machine/Operands.lean ====
section
/-! DEFINITION. Operand forms shared by the families: packed digit sequences (30_encoding.md R96) and the event list of a value on
the serial line (43_serial_link.md R232). Every other operand is a zero-extended field taken at decode (R95). -/

namespace Sys2Proof.Machine

/-- The `n` packed digits of `x`, most significant first: d[i] = X[4(n-1-i)+3 : 4(n-1-i)] (R96). -/
def unpackDigits (x : Nat) : Nat → List Nat
  | 0 => []
  | n + 1 => x / 16 ^ n % 16 :: unpackDigits x n

/-- A digit sequence packed four bits a digit, most significant first (R96): read in hexadecimal it spells the decimal
numeral. -/
def packDigits : List Nat → Nat
  | [] => 0
  | d :: ds => d * 16 ^ ds.length + packDigits ds

/-- Every digit is 0..9 (R130). -/
def digitsValid (ds : List Nat) : Bool := ds.all (· ≤ 9)

/-- `bits(v, w)` of R232: v[w-1], ..., v[0]. -/
def bits (v : Word16) : Nat → List SerialEvent
  | 0 => []
  | n + 1 => .bit (v.getLsbD n) :: bits v n

/-- `bits16(w)` of R232. -/
def bits16 (v : Word16) : List SerialEvent := bits v 16

end Sys2Proof.Machine
end

