-- ==== Sys2Proof/Machine/Ops.lean ====
section
/-! DEFINITION. The named operations every command is made of, at the transaction level of 00_scope.md R14 and R15: taking a command
word, `emit`, `respond` and `raise`. `raise` is this block's one exception entry: an error response (60_exceptions.md R301,
R302). It saves nothing, changes no mode and has no return (R306, R307). There is no memory and no register file (R30,
R60). -/

namespace Sys2Proof.Machine

/-- CMD <- the accepted word, with an empty event list (R14, R103). -/
def State.accept (c : Word64) (s : State) : State :=
  { s with cmd := c, emitted := [] }

/-- The transaction-level effect of one serial event (R231). A `Bit` is one low pulse of SCLK, after which the clock is high
again (R230). CS_N's edges zero GAP_CNT, and only the clock counts it up (R42; log entry 8). -/
def State.perform (s : State) : SerialEvent → State
  | .csLow => { s with csN := false, gapCnt := 0 }
  | .csHigh => { s with csN := true, gapCnt := 0 }
  | .bit b => { s with sclk := true, sdata := b }

/-- `emit` of a list of events, performed in order (R14). -/
def State.emit (es : List SerialEvent) (s : State) : State :=
  { es.foldl State.perform s with emitted := s.emitted ++ es }

/-- `respond(status, result)` ends the command with a response (R14, R91): RSP <- it, ENG <- RESP (R103). -/
def State.respond (st : Status) (result : Word40) (s : State) : State :=
  { s with rsp := rspWord (cmdOp s.cmd) st result, eng := .resp }

/-- `raise st` is `respond(st, 0)` with no state written and no event emitted (R14, R302). -/
def State.raise (st : Status) (s : State) : State :=
  s.respond st 0#40

/-- A word that decodes to no operation is answered with its status and has no other effect (R94, R98). -/
def State.reject (c : Word64) (r : Reject) (s : State) : State :=
  (s.accept c).raise (Status.ofReject r)

/-- The two states of the protocol, named by the active set (R34, R192). -/
inductive Protocol where
  | setAActive
  | setBActive
deriving DecidableEq, Repr

/-- R34: with INITED = 1 the active set is ¬SEL; with INITED = 0 neither name applies. -/
def State.protocol (s : State) : Option Protocol :=
  if s.inited then
    match s.sel with
    | .set1 => some .setAActive
    | .set0 => some .setBActive
  else none

/-- The set that sources the DDS output, as far as the block knows (R34). -/
def State.activeSet (s : State) : Option RegSet :=
  if s.inited then some s.sel.other else none

end Sys2Proof.Machine
end

