-- ==== Sys2Proof/Machine/Bcd.lean ====
section
/-! DEFINITION. The BCD codec (40_bcd.md): conversions and the meanings of BCD.ENC8, BCD.ENC10, BCD.DEC8, BCD.DEC10. -/

namespace Sys2Proof.Machine

/-- MAXV(8) of R131. -/
def maxv8 : Nat := 99999999

/-- `clip(v, n)` of R131: silent clipping for 8 digits, none for 10. -/
def clip (v n : Nat) : Nat := if n = 8 then min v maxv8 else v

/-- "repeatedly subtract ... counting subtractions, until the remainder is smaller than the divisor" (R132): the count and the
remainder, after at most `fuel` subtractions. -/
def subtractCount (div : Nat) : Nat → Nat → Nat → Nat × Nat
  | 0, c, r => (c, r)
  | fuel + 1, c, r => if div ≤ r then subtractCount div fuel (c + 1) (r - div) else (c, r)

/-- The positions of R132 from 10^k down to the last: each count is a digit, the final remainder the last digit. A count is at
most 9 (R133), so ten rounds always reach the end (log entry 10). -/
def subtractDigits : Nat → Nat → List Nat
  | 0, r => [r]
  | k + 1, r =>
    let (c, r') := subtractCount (10 ^ (k + 1)) 10 0 r
    c :: subtractDigits k r'

/-- `bcd_encode(v, n)` of R132. -/
def bcdEncode (v n : Nat) : List Nat := subtractDigits (n - 1) (clip v n)

/-- `bcd_decode(d, n)` of R134: each digit times its power of ten, computed exactly. -/
def bcdDecode : List Nat → Nat
  | [] => 0
  | d :: ds => d * 10 ^ ds.length + bcdDecode ds

/-- The largest value a 10-digit decode may answer (R139). -/
def maxValue32 : Nat := 4294967295

/-- BCD.ENC8 (R136). -/
def execBcdEnc8 (v : Word32) (s : State) : Host.Outcome State Fault Refusal :=
  .next ((s.accept (encode (.bcdEnc8 v))).respond .ok (BitVec.ofNat 40 (packDigits (bcdEncode v.toNat 8))))

/-- BCD.ENC10 (R137). -/
def execBcdEnc10 (v : Word32) (s : State) : Host.Outcome State Fault Refusal :=
  .next ((s.accept (encode (.bcdEnc10 v))).respond .ok (BitVec.ofNat 40 (packDigits (bcdEncode v.toNat 10))))

/-- BCD.DEC8 (R138). -/
def execBcdDec8 (d : Word32) (s : State) : Host.Outcome State Fault Refusal :=
  let s := s.accept (encode (.bcdDec8 d))
  let ds := unpackDigits d.toNat 8
  if digitsValid ds then .next (s.respond .ok (BitVec.ofNat 40 (bcdDecode ds)))
  else .next (s.raise .digit)

/-- BCD.DEC10 (R139): DIGIT before RANGE. -/
def execBcdDec10 (d : Word40) (s : State) : Host.Outcome State Fault Refusal :=
  let s := s.accept (encode (.bcdDec10 d))
  let ds := unpackDigits d.toNat 10
  if digitsValid ds then
    if bcdDecode ds ≤ maxValue32 then .next (s.respond .ok (BitVec.ofNat 40 (bcdDecode ds)))
    else .next (s.raise .range)
  else .next (s.raise .digit)

end Sys2Proof.Machine
end

