-- ==== Sys2Proof/Machine/Tuning.lean ====
section
/-! DEFINITION. The fixed-point tuning calculator (41_tuning.md): Q25.7 and integer frequencies to tuning words, and the meanings of
TUNE.INT and TUNE.FRAC. All arithmetic is exact on natural numbers (R12, R162). -/

namespace Sys2Proof.Machine

/-- `frac_to_tuning(q)` of R162: exact product, shift right by 36, round half up on the one fractional bit left. -/
def fracToTuning (ratio q : Word32) : Nat :=
  let p := q.toNat * ratio.toNat
  let t := p >>> 36
  (t >>> 1) + (t &&& 1)

/-- f[31:25] ≠ 0: the integer frequency is above the Q25.7 range (R163). -/
def aboveRange (f : Word32) : Bool := f.extractLsb' 25 7 != 0#7

/-- `int_to_tuning(f)` of R163; nothing where it raises RANGE. -/
def intToTuning (ratio f : Word32) : Option Nat :=
  if aboveRange f then none else some (fracToTuning ratio (f <<< 7))

/-- TUNE.INT (R167). -/
def execTuneInt (f : Word32) (s : State) : Host.Outcome State Fault Refusal :=
  let s := s.accept (encode (.tuneInt f))
  match intToTuning s.cfg.ratio f with
  | none => .next (s.raise .range)
  | some tw => .next (s.respond .ok (BitVec.ofNat 40 tw))

/-- TUNE.FRAC (R168). -/
def execTuneFrac (q : Word32) (s : State) : Host.Outcome State Fault Refusal :=
  let s := s.accept (encode (.tuneFrac q))
  .next (s.respond .ok (BitVec.ofNat 40 (fracToTuning s.cfg.ratio q)))

end Sys2Proof.Machine
end

