-- ==== Sys2Proof/Machine/Dds.lean ====
section
/-! DEFINITION. The DDS register protocol (42_dds_protocol.md): the words, the frames, and the meanings of DDS.SETI, DDS.SETF and
DDS.INIT. -/

namespace Sys2Proof.Machine

/-- FREQ_TAG(s) of R191. -/
def freqTag (c : Config) : RegSet → Word16
  | .set0 => c.freqTag0
  | .set1 => c.freqTag1

/-- PHASE_TAG(s) of R191. -/
def phaseTag (c : Config) : RegSet → Word16
  | .set0 => c.phaseTag0
  | .set1 => c.phaseTag1

/-- W_LO(s, tw) of R191: the low 14 bits. -/
def wordLo (c : Config) (s : RegSet) (tw : Word28) : Word16 :=
  freqTag c s ||| (tw.extractLsb' 0 14).zeroExtend 16

/-- W_HI(s, tw) of R191: the high 14 bits. -/
def wordHi (c : Config) (s : RegSet) (tw : Word28) : Word16 :=
  freqTag c s ||| (tw.extractLsb' 14 14).zeroExtend 16

/-- W_SEL(s) of R191. -/
def wordSel (c : Config) (s : RegSet) : Word16 :=
  c.ctrlB28 ||| ((s.bit.zeroExtend 16) <<< c.fselBit) ||| ((s.bit.zeroExtend 16) <<< c.pselBit)

/-- W_RST of R191. -/
def wordRst (c : Config) : Word16 := c.ctrlB28 ||| c.ctrlReset

/-- The event list of `emit_frame(ws)` (R194): a frame the host left open is closed first. -/
def frameEvents (csN : Bool) (ws : List Word16) : List SerialEvent :=
  (if csN then [] else [.csHigh]) ++ [.csLow] ++ ws.flatMap bits16 ++ [.csHigh]

/-- `emit_frame(ws)` of R194. -/
def State.emitFrame (ws : List Word16) (s : State) : State :=
  s.emit (frameEvents s.csN ws)

/-- The three words of a frequency change (R193, steps 2-4). -/
def updateWords (c : Config) (s : RegSet) (tw : Word28) : List Word16 :=
  [wordLo c s tw, wordHi c s tw, wordSel c s]

/-- The eight words of DDS.INIT (R195). -/
def initWords (c : Config) : List Word16 :=
  [wordRst c, freqTag c .set0, freqTag c .set0, freqTag c .set1, freqTag c .set1,
   phaseTag c .set0, phaseTag c .set1, wordSel c .set1]

/-- RESULT of a frequency change (R196): bit 32 the set loaded, bits 27:0 the tuning word. -/
def updateResult (s : RegSet) (tw : Word28) : Word40 := 0#7 ++ s.bit ++ 0#4 ++ tw

/-- `dds_update(tw)` of R193 and the response of R196 and R197: mask, send to the inactive set, flip SEL, answer. -/
def State.ddsUpdate (tw : Nat) (s : State) : State :=
  let tw28 : Word28 := BitVec.ofNat 28 tw
  let s' := s.emitFrame (updateWords s.cfg s.sel tw28)
  { s' with sel := s.sel.other }.respond .ok (updateResult s.sel tw28)

/-- DDS.SETI (R196): RANGE, then NOINIT, then the update. -/
def execDdsSeti (f : Word32) (s : State) : Host.Outcome State Fault Refusal :=
  let s := s.accept (encode (.ddsSeti f))
  match intToTuning s.cfg.ratio f with
  | none => .next (s.raise .range)
  | some tw =>
    if s.inited then .next (s.ddsUpdate tw)
    else .next (s.raise .noinit)

/-- DDS.SETF (R197). -/
def execDdsSetf (q : Word32) (s : State) : Host.Outcome State Fault Refusal :=
  let s := s.accept (encode (.ddsSetf q))
  if s.inited then .next (s.ddsUpdate (fracToTuning s.cfg.ratio q))
  else .next (s.raise .noinit)

/-- DDS.INIT (R195): one frame of eight words, SEL <- 0, INITED <- 1. -/
def execDdsInit (s : State) : Host.Outcome State Fault Refusal :=
  let s := s.accept (encode .ddsInit)
  .next ({ s.emitFrame (initWords s.cfg) with sel := .set0, inited := true }.respond .ok 0#40)

end Sys2Proof.Machine
end

