-- ==== Sys2Proof/Machine/Debounce.lean ====
section
/-! DEFINITION. The debounce filter (44_debounce.md): the filter update, the hysteresis, what one clock edge does to the debounce
engine, and the meaning of DEB.READ. -/

namespace Sys2Proof.Machine

/-- `deb_filter(acc, s)` of R272, on exact numbers (R273: the result never leaves 8 bits). -/
def debFilter (acc sample : Nat) : Nat := (acc - (acc >>> 3)) + (sample >>> 3)

/-- The hysteresis of R274: the new PUB from the updated accumulator and the old PUB. -/
def hysteresis (c : Config) (a : Nat) (pub : Bool) : Bool :=
  if !pub && decide (c.thHi < a) then true
  else if pub && decide (a < c.thLo) then false
  else pub

/-- The two-valued sample of R270. -/
def sampleOf (asserted : Bool) : Nat := if asserted then 0xFF else 0x00

/-- `deb_tick(acc, pub, s)` of R274. -/
def debTick (c : Config) (acc : BitVec 8) (pub asserted : Bool) : BitVec 8 × Bool :=
  let a := debFilter acc.toNat (sampleOf asserted)
  (BitVec.ofNat 8 a, hysteresis c a pub)

/-- y = SYNC[SYNC_STAGES-1], the level the debounce engine samples (R43, R270). -/
def State.syncOut (s : State) : Bool := s.sync.getLast?.getD (releasedLevel s.cfg)

/-- The sampled level means asserted (R270). -/
def State.rawAsserted (s : State) : Bool := s.syncOut == s.cfg.rawActiveHigh

/-- SYNC at a clock edge: SYNC[0] <- `raw_in`, SYNC[k] <- SYNC[k-1] (R43). -/
def shiftSync (raw : Bool) (sync : List Bool) : List Bool := (raw :: sync).take sync.length

/-- The debounce engine at one clock edge (R43, R271, R275): a tick reads ACC, PUB and y as held and writes ACC and PUB
together; the synchroniser moves in every cycle. -/
def State.debounceEdge (p : PortIn) (s : State) : State :=
  let a := debTick s.cfg s.acc s.pub s.rawAsserted
  { s with
    acc := if p.debTick then a.1 else s.acc
    pub := if p.debTick then a.2 else s.pub
    sync := shiftSync p.rawIn s.sync }

/-- DEB.READ (R279): PUB as the accepting cycle holds it. -/
def execDebRead (s : State) : Host.Outcome State Fault Refusal :=
  .next ((s.accept (encode .debRead)).respond .ok (if s.pub then 1#40 else 0#40))

end Sys2Proof.Machine
end

