-- ==== Sys2Proof/Machine/Serial.lean ====
section
/-! DEFINITION. The serial bit link's own commands (43_serial_link.md): the meanings of SBL.SEND and SBL.CS. What each event does cycle
by cycle is Machine/Cycle.lean. -/

namespace Sys2Proof.Machine

/-- SBL.SEND (R241): `w` bits of `v`, most significant first; CS_N is not changed. -/
def execSblSend (w : Nat) (v : Word16) (s : State) : Host.Outcome State Fault Refusal :=
  .next (((s.accept (encode (.sblSend w v))).emit (bits v w)).respond .ok 0#40)

/-- The events of SBL.CS (R242): an edge only where the line is not there already. -/
def csEvents (l csN : Bool) : List SerialEvent :=
  if l && csN then [.csLow]
  else if !l && !csN then [.csHigh]
  else []

/-- SBL.CS (R242). -/
def execSblCs (l : Bool) (s : State) : Host.Outcome State Fault Refusal :=
  .next (((s.accept (encode (.sblCs l))).emit (csEvents l s.csN)).respond .ok 0#40)

end Sys2Proof.Machine
end

