-- ==== Sys2Proof/Machine/Dispatch.lean ====
section
/-! DEFINITION. What each command does, at the transaction level of 00_scope.md R15: one arm per constructor of Instr. -/

namespace Sys2Proof.Machine

/-- The whole effect of one accepted command: new state, response and event list (R15, R93). -/
def exec (i : Instr) (s : State) : Host.Outcome State Fault Refusal :=
  match i with
  | .bcdEnc8 v => Sys2Proof.Machine.execBcdEnc8 v s
  | .bcdEnc10 v => Sys2Proof.Machine.execBcdEnc10 v s
  | .bcdDec8 d => Sys2Proof.Machine.execBcdDec8 d s
  | .bcdDec10 d => Sys2Proof.Machine.execBcdDec10 d s
  | .tuneInt f => Sys2Proof.Machine.execTuneInt f s
  | .tuneFrac q => Sys2Proof.Machine.execTuneFrac q s
  | .ddsSeti f => Sys2Proof.Machine.execDdsSeti f s
  | .ddsSetf q => Sys2Proof.Machine.execDdsSetf q s
  | .ddsInit => Sys2Proof.Machine.execDdsInit s
  | .sblSend w v => Sys2Proof.Machine.execSblSend w v s
  | .sblCs l => Sys2Proof.Machine.execSblCs l s
  | .debRead => Sys2Proof.Machine.execDebRead s

end Sys2Proof.Machine
end

