-- ==== Sys2Proof/Machine/Cycle.lean ====
section
/-! DEFINITION. The cycle level (00_scope.md R15): what one rising edge of `clk` does to the command engine, the serial engine, GAP_CNT,
the host port and the debounce engine. A state is what the registers hold during one cycle; an edge gives the registers of the
next cycle. -/

namespace Sys2Proof.Machine

/-! ## The serial engine (43_serial_link.md R233-R237) -/

/-- GAP_CNT of the cycle that begins at this edge, unless CS_N has an edge there (R42, R236): one more while CS_N is high,
saturating at T_GAP, 0 while it is low. -/
def State.countGap (s : State) : State :=
  { s with gapCnt := if s.csN then min s.cfg.tGap (s.gapCnt + 1) else 0 }

/-- The command completes (R237, D40): RSP, SEL and INITED are written and ENG <- RESP. -/
def State.complete (k : Commit) (s : State) : State :=
  { s with eng := .resp, rsp := k.rsp, sel := k.sel, inited := k.inited }

/-- The cycle that begins at this edge is the first of `hold` cycles of phase `p`. -/
def State.inPhase (p : Phase) (hold : Nat) (es : List SerialEvent) (k : Commit) (s : State) : State :=
  { s with eng := .exec ⟨.inEvent p (hold - 1), es, k⟩ }

/-- A `CSLow` whose wait may be over (R234): CS_N falls at this edge exactly when the count of the beginning cycle has
reached T_GAP; in that cycle CS_N is 0 and so is GAP_CNT (R236; log entry 7). -/
def State.lowerCs (es : List SerialEvent) (k : Commit) (s : State) : State :=
  if s.gapCnt = s.cfg.tGap then
    { s with csN := false, gapCnt := 0 }.inPhase .csSelected s.cfg.tCss es k
  else s.inPhase .gapWait 1 es k

/-- The first cycle of event `e` (R233, R234, R235); `es` are the events after it. -/
def State.startEvent (e : SerialEvent) (es : List SerialEvent) (k : Commit) (s : State) : State :=
  match e with
  | .bit b => { s with sdata := b }.inPhase (.bitSetup b) s.cfg.tSu es k
  | .csLow => s.lowerCs es k
  | .csHigh => s.inPhase .csHold s.cfg.tCsh es k

/-- Events are performed back to back; after the last one the command completes (R237). -/
def State.nextEvent (es : List SerialEvent) (k : Commit) (s : State) : State :=
  match es with
  | [] => s.complete k
  | e :: es => s.startEvent e es k

/-- Phase `p` has lasted its cycles: what the beginning cycle is (R233, R234, R235). -/
def State.endPhase (p : Phase) (es : List SerialEvent) (k : Commit) (s : State) : State :=
  match p with
  | .bitSetup b => { s with sclk := false }.inPhase (.bitLow b) s.cfg.tLo es k
  | .bitLow b => { s with sclk := true }.inPhase (.bitHigh b) s.cfg.tHi es k
  | .bitHigh _ => s.nextEvent es k
  | .gapWait => s.lowerCs es k
  | .csSelected => s.nextEvent es k
  | .csHold => { s with csN := true, gapCnt := 0 }.inPhase .csReleased 1 es k
  | .csReleased => s.nextEvent es k

/-- One edge of a command in progress (R41). -/
def State.advance (j : Job) (s : State) : State :=
  match j.pos with
  | .latency 0 => s.nextEvent j.events j.commit
  | .latency (n + 1) => { s with eng := .exec { j with pos := .latency n } }
  | .inEvent p 0 => s.endPhase p j.events j.commit
  | .inEvent p (n + 1) => { s with eng := .exec { j with pos := .inEvent p n } }

/-- `lat` cycles of EXEC, then the first event or the response (R105, R237). -/
def State.startAfter (lat : Nat) (es : List SerialEvent) (k : Commit) (s : State) : State :=
  match lat with
  | 0 => s.nextEvent es k
  | n + 1 => { s with eng := .exec ⟨.latency n, es, k⟩ }

/-! ## The host port (30_encoding.md R103-R105) -/

/-- OP of a serial command: DDS.* and SBL.* (R105). -/
def serialOp (op : Nibble) : Bool := decide (5 ≤ op.toNat) && decide (op.toNat ≤ 9)

/-- The cycles of EXEC before the first event or the response (R105): LAT_START for a serial command answered OK, else
LAT_COMPUTE less the cycle the response itself begins in (log entry 6). -/
def latencyOf (c : Config) (rsp : Word64) : Nat :=
  if serialOp (rspOp rsp) && rspStatus rsp == 0#4 then c.latStart else c.latCompute - 1

/-- A command word performed at the transaction level (R94, R15): the decoded command's meaning, or the decoder's status. -/
def performWord (c : Word64) (s : State) : Host.Outcome State Fault Refusal :=
  match decode c with
  | .instr i => exec i s
  | .reject r => .next (s.reject c r)

/-- The edge that accepts word `c`: CMD <- the word, and of its transaction-level outcome `t` the event list now, the response, SEL
and INITED for completion (R103, R237, D40; log entry 5). -/
def State.begin (c : Word64) (t s : State) : State :=
  { s.countGap with cmd := c, emitted := t.emitted }.startAfter
    (latencyOf s.cfg t.rsp) t.emitted ⟨t.rsp, t.sel, t.inited⟩

/-- The output ports during a cycle (R45, R38); free values before the first cycle with `rst` = 1 (R342). In that cycle
the two handshake outputs are 0 (R340) and the others show the unspecified registers. -/
def State.outputs (p : PortIn) (s : State) : PortOut :=
  if s.beenReset || p.rst then
    { cmdReady := s.eng == .idle && !p.rst
      rspValid := s.eng == .resp && !p.rst
      rspData := s.rsp
      csN := s.csN
      sclk := s.sclk
      sdata := s.sdata }
  else Config.freeOutputs s.clock

/-- `cmd_ready` (R45). -/
def State.cmdReady (p : PortIn) (s : State) : Bool := (s.outputs p).cmdReady

/-- `rsp_valid` (R45). -/
def State.rspValid (p : PortIn) (s : State) : Bool := (s.outputs p).rspValid

/-- The command engine at one edge with `rst` = 0 (R40, R103): accept in IDLE, advance in EXEC, hand over in RESP. -/
def State.commandEdge (p : PortIn) (s : State) : Host.Outcome State Fault Refusal :=
  match s.eng with
  | .idle =>
    if p.cmdValid then
      match performWord p.cmdData s with
      | .next t => .next (State.begin p.cmdData t s)
      | .fault r => .fault r
      | .refused r => .refused r
    else .next s.countGap
  | .exec j => .next (s.countGap.advance j)
  | .resp => .next (if p.rspReady then { s.countGap with eng := .idle } else s.countGap)

/-! ## The clock edge -/

/-- A cycle with `rst` = 1: every row of R32 takes its reset value, the configuration stays (R340, R341). -/
def State.resetEdge (s : State) : State :=
  { State.resetWith s.cfg with inputs := s.inputs, clock := s.clock }

/-- The first `n` stages of a list, made up to `n` with zeros where it is shorter. -/
def stages (n : Nat) (l : List Bool) : List Bool := (List.range n).map (fun k => l.getD k false)

/-- The block in cycle `n` after power is applied and before any reset (R342, R314): every element of R32 is a free value of its width,
the configuration is fixed as ever (R47). -/
def State.unspecified (c : Config) (ps : List PortIn) (n : Nat) : State :=
  { Config.freeElements n with
    sync := stages c.syncStages (Config.freeElements n).sync
    cfg := c
    inputs := ps
    clock := n
    beenReset := false }

/-- The first cycle after power is applied. -/
def State.powerOn (c : Config) (ps : List PortIn) : State := State.unspecified c ps 0

/-- The input levels of this cycle: the placed ones, or a free value (log entry 1). -/
def State.input (s : State) : PortIn :=
  match s.inputs with
  | p :: _ => p
  | [] => Config.freeInput s.clock

/-- The environment's side of an edge: the next cycle's levels come up. -/
def State.passCycle (s : State) : State :=
  { s with inputs := s.inputs.tail, clock := s.clock + 1 }

/-- A cycle with `rst` = 0 before the first reset: the next cycle's elements are free again, whatever this cycle held or its inputs
ask (R342: "no rule of this spec holds before it"). -/
def State.unspecifiedEdge (s : State) : State :=
  { State.unspecified s.cfg s.inputs (s.clock + 1) with clock := s.clock }

/-- One rising edge of `clk` with input levels `p` (R4, R305, R341, R342): reset overrides all; before the first one nothing is fixed;
else the command engine and the debounce engine move, each from the levels held before the edge. They write disjoint state. -/
def clockEdge (p : PortIn) (s : State) : Host.Outcome State Fault Refusal :=
  if p.rst then .next s.resetEdge
  else if !s.beenReset then .next s.unspecifiedEdge
  else
    match s.commandEdge p with
    | .next t => .next (t.debounceEdge p)
    | .fault r => .fault r
    | .refused r => .refused r

/-- The port levels with which a host offers command word `c` in a cycle that is otherwise `p` (R103). -/
def offering (c : Word64) (p : PortIn) : PortIn :=
  { p with rst := false, cmdValid := true, cmdData := c }

/-- `s` with command word `c` offered in its next cycle and the command port ready for it, whatever the engine was doing and had the
block been reset or not; the other input levels stay as placed, or quiet where none is placed (log entry 13). -/
def State.offerWord (c : Word64) (s : State) : State :=
  match s.inputs with
  | p :: ps => { s with eng := .idle, beenReset := true, inputs := offering c p :: ps }
  | [] => { s with eng := .idle, beenReset := true, inputs := [offering c PortIn.quiet] }

end Sys2Proof.Machine
end

