-- ==== Sys2Proof/Machine/Step.lean ====
section
/-! DEFINITION. One step of the machine is one clock cycle (00_scope.md R4). The block fetches no instructions (10_state.md R31): a
command comes in over the host port. -/

namespace Sys2Proof.Machine

/-- One clock cycle: the edge that ends it, with this cycle's input levels. -/
def step (s : State) : Host.Outcome State Fault Refusal :=
  match clockEdge s.input s with
  | .next t => .next t.passCycle
  | .fault r => .fault r
  | .refused r => .refused r

/-- `s` with a table word offered on the command port in its next cycle (log entry 13). -/
def State.withFetchWord (s : State) (nbits w : Nat) : State :=
  s.offerWord (tableWord nbits w)

end Sys2Proof.Machine
end

