-- ==== Sys2Proof/Machine/Assembler.lean ====
section
/-! DEFINITION. The assembler syntax of 30_encoding.md R100 and the pseudo-instructions of R101: "`MNEMONIC` followed by
comma-separated operands, each a decimal numeral or a `0x` hexadecimal numeral". No part of the block: a writer of command
words. What R100 leaves open of its text is DESIGN CHOICE (log entry 23). -/

namespace Sys2Proof.Machine

/-- The value of a digit character in base 10 or 16. DESIGN CHOICE: a hexadecimal digit may be a capital or a small letter, and a
separator `_` is no digit, so a numeral with one is rejected (log entry 23). -/
def digitValue (base : Nat) (c : Char) : Option Nat :=
  let n := c.toNat
  let v := if 48 ≤ n ∧ n ≤ 57 then n - 48
    else if 65 ≤ n ∧ n ≤ 70 then n - 55
    else if 97 ≤ n ∧ n ≤ 102 then n - 87
    else base
  if v < base then some v else none

/-- The value of a non-empty run of digits. -/
def digitsValue (base : Nat) : Nat → List Char → Option Nat
  | acc, [] => some acc
  | acc, c :: cs =>
    match digitValue base c with
    | some d => digitsValue base (acc * base + d) cs
    | none => none

/-- A decimal numeral or a `0x` hexadecimal numeral (R100), with a small `x` and at least one digit (log entry 23). -/
def numeral : List Char → Option Nat
  | [] => none
  | ['0', 'x'] => none
  | '0' :: 'x' :: c :: cs => digitsValue 16 0 (c :: cs)
  | cs => digitsValue 10 0 cs

/-- A line's text cut at its commas. -/
def splitCommas : List Char → List (List Char)
  | [] => [[]]
  | ',' :: cs => [] :: splitCommas cs
  | c :: cs =>
    match splitCommas cs with
    | p :: ps => (c :: p) :: ps
    | [] => [[c]]

/-- Text without the spaces around it (log entry 23). -/
def trim (cs : List Char) : List Char :=
  ((cs.dropWhile (· == ' ')).reverse.dropWhile (· == ' ')).reverse

/-- The operands of a line, in order; none of them where there is no text. -/
def operands (cs : List Char) : Option (List Nat) :=
  if trim cs = [] then some []
  else (splitCommas cs).mapM (fun o => numeral (trim o))

/-- An operand inside its range, else the assembler rejects it (R100). -/
def below (n bound : Nat) (i : Instr) : Option (List Instr) := if n < bound then some [i] else none

/-- The forms of R100 and the expansions of R101. -/
def expand (mnemonic : List Char) (ops : List Nat) : Option (List Instr) :=
  if mnemonic = "BCD.ENC8".toList then
    match ops with | [v] => below v (2 ^ 32) (.bcdEnc8 (BitVec.ofNat 32 v)) | _ => none
  else if mnemonic = "BCD.ENC10".toList then
    match ops with | [v] => below v (2 ^ 32) (.bcdEnc10 (BitVec.ofNat 32 v)) | _ => none
  else if mnemonic = "BCD.DEC8".toList then
    match ops with | [d] => below d (2 ^ 32) (.bcdDec8 (BitVec.ofNat 32 d)) | _ => none
  else if mnemonic = "BCD.DEC10".toList then
    match ops with | [d] => below d (2 ^ 40) (.bcdDec10 (BitVec.ofNat 40 d)) | _ => none
  else if mnemonic = "TUNE.INT".toList then
    match ops with | [f] => below f (2 ^ 32) (.tuneInt (BitVec.ofNat 32 f)) | _ => none
  else if mnemonic = "TUNE.FRAC".toList then
    match ops with | [q] => below q (2 ^ 32) (.tuneFrac (BitVec.ofNat 32 q)) | _ => none
  else if mnemonic = "DDS.SETI".toList then
    match ops with | [f] => below f (2 ^ 32) (.ddsSeti (BitVec.ofNat 32 f)) | _ => none
  else if mnemonic = "DDS.SETF".toList then
    match ops with | [q] => below q (2 ^ 32) (.ddsSetf (BitVec.ofNat 32 q)) | _ => none
  else if mnemonic = "DDS.INIT".toList then
    match ops with | [] => some [.ddsInit] | _ => none
  else if mnemonic = "SBL.SEND".toList then
    match ops with
    | [w, v] => if 1 ≤ w ∧ w ≤ 16 then below v (2 ^ 16) (.sblSend w (BitVec.ofNat 16 v)) else none
    | _ => none
  else if mnemonic = "SBL.CS".toList then
    match ops with | [l] => below l 2 (.sblCs (l == 1)) | _ => none
  else if mnemonic = "DEB.READ".toList then
    match ops with | [] => some [.debRead] | _ => none
  else if mnemonic = "SBL.XFER".toList then
    match ops with
    | [w, v] =>
      if 1 ≤ w ∧ w ≤ 16 ∧ v < 2 ^ 16 then
        some [.sblCs true, .sblSend w (BitVec.ofNat 16 v), .sblCs false]
      else none
    | _ => none
  else if mnemonic = "BCD.ENC".toList then
    match ops with
    | [8, v] => below v (2 ^ 32) (.bcdEnc8 (BitVec.ofNat 32 v))
    | [10, v] => below v (2 ^ 32) (.bcdEnc10 (BitVec.ofNat 32 v))
    | _ => none
  else if mnemonic = "BCD.DEC".toList then
    match ops with
    | [8, d] => below d (2 ^ 32) (.bcdDec8 (BitVec.ofNat 32 d))
    | [10, d] => below d (2 ^ 40) (.bcdDec10 (BitVec.ofNat 40 d))
    | _ => none
  else none

/-- The command words of one line of assembler text, or nothing where the assembler rejects it (R100, R101). -/
def assemble (line : String) : Option (List Word64) :=
  let cs := line.toList.dropWhile (· == ' ')
  match operands (cs.dropWhile (· != ' ')) with
  | some ops => (expand (cs.takeWhile (· != ' ')) ops).map (·.map encode)
  | none => none

end Sys2Proof.Machine
end

