-- ==== Sys2Proof/Machine/Receiver.lean ====
section
/-! DEFINITION. What the receivers on the lines see (43_serial_link.md R238) and what a DDS chip with the default word layout holds
(20_memory.md R61). Both stand outside the block (00_scope.md R6, R7): nothing here is machine state or read by a step. Claims
are stated with it. Where the spec says nothing of the chip, what the view takes is DESIGN CHOICE (log entries 15, 19-22). -/

namespace Sys2Proof.Machine

/-- The three output lines during one cycle (R38). -/
structure Lines where
  csN : Bool
  sclk : Bool
  sdata : Bool
deriving DecidableEq, Repr

/-- The lines as a state drives them (R38). -/
def State.lines (s : State) : Lines := ⟨s.csN, s.sclk, s.sdata⟩

/-- A receiver: the bits of the frame that is open, if one is, and the frames that are complete, oldest first (R238). -/
structure Receiver where
  current : Option (List Bool)
  frames : List (List Bool)
deriving DecidableEq, Repr

/-- CS_N falls: a frame begins. -/
def Receiver.openFrame (r : Receiver) : Receiver := { r with current := some [] }

/-- SCLK falls: the bit belongs to the open frame, or to none. -/
def Receiver.sample (b : Bool) (r : Receiver) : Receiver := { r with current := r.current.map (· ++ [b]) }

/-- CS_N rises: the open frame is complete. -/
def Receiver.closeFrame (r : Receiver) : Receiver :=
  match r.current with
  | some bs => ⟨none, r.frames ++ [bs]⟩
  | none => r

/-- The receiver at the start of a cycle with lines `new` after one with lines `old`: "the list of SDATA values at the SCLK
falling edges between one CS_N fall and the next CS_N rise" (R238). -/
def Receiver.see (old new : Lines) (r : Receiver) : Receiver :=
  let r := if old.csN && !new.csN then r.openFrame else r
  let r := if old.sclk && !new.sclk then r.sample new.sdata else r
  if !old.csN && new.csN then r.closeFrame else r

/-- The receiver over one performed serial event (R238). -/
def Receiver.event (r : Receiver) : SerialEvent → Receiver
  | .csLow => r.openFrame
  | .bit b => r.sample b
  | .csHigh => r.closeFrame

/-- Sixteen bits as a word, most significant first (R63). -/
def wordOfBits (bs : List Bool) : Word16 :=
  bs.foldl (fun w b => (w <<< 1) ||| (if b then 1#16 else 0#16)) 0#16

/-- The first `n` words of a frame (R62: every access is one 16-bit word). -/
def wordsOfBits : Nat → List Bool → List Word16
  | 0, _ => []
  | n + 1, bs => wordOfBits (bs.take 16) :: wordsOfBits n (bs.drop 16)

/-- The whole words a frame carries. Of a frame of another length than whole words it gives only those; what the chip makes of such a
frame is `Chip.frame` (log entry 21). -/
def frameWords (bs : List Bool) : List Word16 := wordsOfBits (bs.length / 16) bs

/-- The targets of R61 with the default tags. -/
inductive Target where
  | freq (s : RegSet)
  | phase (s : RegSet)
  | control
deriving DecidableEq, Repr

/-- R61: bits 15:14 = 01 FREQ0, 10 FREQ1, 11 a phase register (bit 13 says which), 00 CONTROL. -/
def targetOf (w : Word16) : Target :=
  match w.getLsbD 15, w.getLsbD 14, w.getLsbD 13 with
  | false, true, _ => .freq .set0
  | true, false, _ => .freq .set1
  | true, true, false => .phase .set0
  | true, true, true => .phase .set1
  | false, false, _ => .control

/-- The chip's registers of R61 as the history of words makes them (R62); nothing where no word has said. The spec gives a phase register
no width: DESIGN CHOICE, all 13 bits of a phase word below its tag (log entry 19). -/
structure Chip where
  freq0 : Option Word28
  freq1 : Option Word28
  phase0 : Option (BitVec 13)
  phase1 : Option (BitVec 13)
  /-- the low half sent last, while its high half is awaited (R64) -/
  pending : Option (RegSet × BitVec 14)
  /-- the set the last control word selected as output source, if it selected one (log entry 20) -/
  source : Option RegSet
  /-- whether the last control word held the output in reset -/
  held : Option Bool
deriving DecidableEq, Repr

/-- A chip of which nothing is known. -/
def Chip.unknown : Chip := ⟨none, none, none, none, none, none, none⟩

/-- The frequency register of a set. -/
def Chip.freq (c : Chip) : RegSet → Option Word28
  | .set0 => c.freq0
  | .set1 => c.freq1

/-- A whole tuning word has arrived. -/
def Chip.setFreq (s : RegSet) (v : Word28) (c : Chip) : Chip :=
  match s with
  | .set0 => { c with freq0 := some v, pending := none }
  | .set1 => { c with freq1 := some v, pending := none }

/-- The source a control word selects: the set that FSEL_BIT and PSEL_BIT both name (R191, W_SEL). The spec says nothing of a word in
which they differ, as only a raw send can make one: DESIGN CHOICE, the source is not known then (log entry 20). -/
def sourceOf (cfg : Config) (w : Word16) : Option RegSet :=
  match w.getLsbD cfg.fselBit, w.getLsbD cfg.pselBit with
  | true, true => some .set1
  | false, false => some .set0
  | true, false => none
  | false, true => none

/-- One word to the chip: two consecutive words for one frequency register, low half first (R61, R64); a phase word's 13 bits below its
tag (log entry 19). Words of raw sends, after which the chip holds any value (R347, U15), are read by the same layout: DESIGN CHOICE,
CTRL_B28 clear does not change the pairing, and half a tuning word that another word follows is dropped (log entry 22). -/
def Chip.word (cfg : Config) (c : Chip) (w : Word16) : Chip :=
  match targetOf w with
  | .freq s =>
    match c.pending with
    | some (s', lo) =>
      if s' = s then c.setFreq s (w.extractLsb' 0 14 ++ lo) else { c with pending := some (s, w.extractLsb' 0 14) }
    | none => { c with pending := some (s, w.extractLsb' 0 14) }
  | .phase .set0 => { c with phase0 := some (w.extractLsb' 0 13), pending := none }
  | .phase .set1 => { c with phase1 := some (w.extractLsb' 0 13), pending := none }
  | .control =>
    { c with
      source := sourceOf cfg w
      held := some ((w &&& cfg.ctrlReset) != 0#16)
      pending := none }

/-- One frame to the chip: its words in order. After a frame that is not of whole words the chip's registers are any value (R349, U15):
nothing is known of it. A frame that a reset cuts just after a whole word is a partial frame too, but the lines do not show that:
DESIGN CHOICE, it is read as a complete frame (log entry 21). The spec does not say whether half a tuning word that still waits at the
end of a frame pairs with the first word of the next one: DESIGN CHOICE, it does, and a frame without bits changes nothing (log
entry 22). -/
def Chip.frame (cfg : Config) (c : Chip) (bs : List Bool) : Chip :=
  if bs.length % 16 = 0 then (frameWords bs).foldl (Chip.word cfg) c else Chip.unknown

/-- R198 for the words of frequency changes: each frequency word targets a set that is not the output source at that
moment. -/
def glitchFree (cfg : Config) : Chip → List Word16 → Bool
  | _, [] => true
  | c, w :: ws =>
    (match targetOf w with
      | .freq s => decide (c.source = some s.other)
      | _ => true) && glitchFree cfg (c.word cfg w) ws

end Sys2Proof.Machine
end

