-- ==== Sys2Proof/Safety.lean ====
section
/-! DEFINITION. What counts as a safe state and a safe run, in the terms claims use: running cycles, watching the lines, the length of
a command, and the invariant that every step keeps. -/

namespace Sys2Proof.Machine

/-! ## Runs -/

/-- `k` clock cycles. -/
def runCycles : Nat → State → Host.Outcome State Fault Refusal
  | 0, s => .next s
  | k + 1, s =>
    match step s with
    | .next t => runCycles k t
    | .fault r => .fault r
    | .refused r => .refused r

/-- `k` clock cycles under the eyes of a receiver on the lines (R238); nothing if a step stopped. -/
def watch : Nat → State → Receiver → Option (State × Receiver)
  | 0, s, r => some (s, r)
  | k + 1, s, r =>
    match step s with
    | .next t => watch k t (r.see s.lines t.lines)
    | .fault _ => none
    | .refused _ => none

/-- The input levels `n` cycles ahead: placed, or free. -/
def State.inputAt (s : State) (n : Nat) : PortIn :=
  match s.inputs[n]? with
  | some p => p
  | none => Config.freeInput (s.clock + n)

/-- `rst` = 0 in this cycle and the ones after it, `k` in all. -/
def NoReset (k : Nat) (s : State) : Prop := ∀ n, n < k → (s.inputAt n).rst = false

/-- This cycle accepts command word `c` (R103): IDLE, `rst` = 0, `cmd_valid` = 1, in a block that has been reset (R342). -/
structure Accepts (s : State) (c : Word64) : Prop where
  beenReset : s.beenReset = true
  idle : s.eng = .idle
  noReset : s.input.rst = false
  valid : s.input.cmdValid = true
  data : s.input.cmdData = c

/-- The cycles a list of serial events takes, the first of them beginning with count `gap` and chip-select level `csN`
(R233-R237, R244): a `CSLow` stalls until the count is T_GAP. -/
def eventsDuration (c : Config) : Nat → Bool → List SerialEvent → Nat
  | _, _, [] => 0
  | gap, csN, .bit _ :: es =>
    c.dBit + eventsDuration c (if csN then min c.tGap (gap + c.dBit) else 0) csN es
  | gap, _, .csLow :: es => (c.tGap - gap) + c.tCss + eventsDuration c 0 false es
  | _, _, .csHigh :: es => c.tCsh + 1 + eventsDuration c (min c.tGap 1) true es

/-- The cycles from acceptance in state `s` to the first cycle with the response, for a command whose transaction-level outcome is
`t` (R105, R237, R353). -/
def commandDuration (s t : State) : Nat :=
  let lat := latencyOf s.cfg t.rsp
  1 + lat + eventsDuration s.cfg (if s.csN then min s.cfg.tGap (s.gapCnt + 1 + lat) else 0) s.csN t.emitted

/-! ## The invariant -/

/-- The form of RSP64 (R91, R92). -/
structure RspForm (r : Word64) : Prop where
  zero : r.extractLsb' 40 16 = 0#16
  status : (rspStatus r).toNat ≤ 5
  result : rspStatus r ≠ 0#4 → rspResult r = 0#40

/-- A serial event list that fits the chip-select level it starts from: CS_N falls only from high and rises only from low
(R242, R194). -/
def wellFramed : Bool → List SerialEvent → Bool
  | _, [] => true
  | csN, .csLow :: es => csN && wellFramed false es
  | csN, .csHigh :: es => !csN && wellFramed true es
  | csN, .bit _ :: es => wellFramed csN es

/-- The line levels in each phase and the hold cycles left (R233, R234, R235). -/
def phaseOk (c : Config) (l : Lines) (p : Phase) (left : Nat) : Prop :=
  match p with
  | .bitSetup b => l.sclk = true ∧ l.sdata = b ∧ left < c.tSu
  | .bitLow b => l.sclk = false ∧ l.sdata = b ∧ left < c.tLo
  | .bitHigh b => l.sclk = true ∧ l.sdata = b ∧ left < c.tHi
  | .gapWait => l.sclk = true ∧ l.csN = true ∧ left = 0
  | .csSelected => l.sclk = true ∧ l.csN = false ∧ left < c.tCss
  | .csHold => l.sclk = true ∧ l.csN = false ∧ left < c.tCsh
  | .csReleased => l.sclk = true ∧ l.csN = true ∧ left = 0

/-- The lines as the position of a command in progress has them (R237: SCLK = 1 outside events). -/
def posOk (c : Config) (l : Lines) : Pos → Prop
  | .latency _ => l.sclk = true
  | .inEvent p left => phaseOk c l p left

/-- The chip-select level after the event in progress. -/
def csAfter (csN : Bool) : Pos → Bool
  | .latency _ => csN
  | .inEvent .gapWait _ => false
  | .inEvent .csHold _ => true
  | .inEvent _ _ => csN

/-- What a command in progress has right (R41): its lines, its remaining events, and what completion will write: an answer to the
command in CMD, SEL changed only by an OK DDS command (R199), INITED only by an OK DDS.INIT and only to 1 (R35). -/
structure JobInv (s : State) (j : Job) : Prop where
  pos : posOk s.cfg s.lines j.pos
  framed : wellFramed (csAfter s.csN j.pos) j.events = true
  form : RspForm j.commit.rsp
  op : rspOp j.commit.rsp = cmdOp s.cmd
  sel : j.commit.sel ≠ s.sel → rspStatus j.commit.rsp = 0#4 ∧ (cmdOp s.cmd = 5#4 ∨ cmdOp s.cmd = 6#4 ∨ cmdOp s.cmd = 7#4)
  inited : j.commit.inited ≠ s.inited → rspStatus j.commit.rsp = 0#4 ∧ cmdOp s.cmd = 7#4 ∧ j.commit.inited = true

/-- The invariant of the block under a legal configuration, from its first reset on (R342: before it, no rule holds). -/
structure Inv (s : State) : Prop where
  beenReset : s.beenReset = true
  legal : s.cfg.Legal
  /-- SYNC has SYNC_STAGES stages (R43). -/
  sync : s.sync.length = s.cfg.syncStages
  /-- GAP_CNT saturates at T_GAP and is 0 while CS_N = 0 (R236). -/
  gapLe : s.gapCnt ≤ s.cfg.tGap
  gapLow : s.csN = false → s.gapCnt = 0
  /-- R278: PUB = 0 implies ACC ≤ TH_HI, PUB = 1 implies ACC ≥ TH_LO. -/
  released : s.pub = false → s.acc.toNat ≤ s.cfg.thHi
  asserted : s.pub = true → s.cfg.thLo ≤ s.acc.toNat
  /-- RSP has the form of R91, and in RESP it answers CMD. -/
  form : RspForm s.rsp
  answers : s.eng = .resp → rspOp s.rsp = cmdOp s.cmd
  /-- SCLK is high whenever no bit is in progress (R38). -/
  clockHigh : s.eng = .idle ∨ s.eng = .resp → s.sclk = true
  /-- A command in progress is in order. -/
  job : ∀ j, s.eng = .exec j → JobInv s j

end Sys2Proof.Machine
end

