-- ==== Sys2Proof/Certificates/Slice0/Obligations.lean ====
section
/-! DEFINITION. The statements for the provers, one Prop each, from the numbered rules of spec/. The terms they need of their own stand
first, written from the rules and not from the meanings they are about. -/

namespace Sys2Proof.Claims

open Sys2Proof.Machine

/-- The rows of spec/opcode_table.json: match and mask. -/
def opcodeTable : List (Nat × Nat) :=
  [(0x1000000000000000, 0xFFFFFFFF00000000), (0x1100000000000000, 0xFFFFFFFF00000000),
   (0x2000000000000000, 0xFFFFFFFF00000000), (0x2100000000000000, 0xFFFFFF0000000000),
   (0x3000000000000000, 0xFFFFFFFF00000000), (0x4000000000000000, 0xFFFFFFFF00000000),
   (0x5000000000000000, 0xFFFFFFFF00000000), (0x6000000000000000, 0xFFFFFFFF00000000),
   (0x7000000000000000, 0xFFFFFFFFFFFFFFFF), (0x8000000000000000, 0xF0FFFFFFFFFF0000),
   (0x9000000000000000, 0xFEFFFFFFFFFFFFFF), (0xA000000000000000, 0xFFFFFFFFFFFFFFFF)]

/-- The word matches a row of the opcode table. -/
abbrev InTable (c : Word64) : Prop :=
  ∃ row ∈ opcodeTable, c &&& BitVec.ofNat 64 row.2 = BitVec.ofNat 64 row.1

/-- OP is 0x0 or 0xB-0xF (R98). -/
abbrev UnassignedOp (c : Word64) : Prop := (cmdOp c).toNat = 0 ∨ 11 ≤ (cmdOp c).toNat

/-- The k-th nibble of a packed sequence, k = 0 the last digit (R96). -/
def nibble (x k : Nat) : Nat := x / 16 ^ k % 16

/-- The value of the last n digits of a packed sequence (R134). -/
def digitSum (x n : Nat) : Nat := ∑ k ∈ Finset.range n, nibble x k * 10 ^ k

/-- floor(q · RATIO / 2^37 + 1/2) (R162). -/
def roundedWord (ratio : Word32) (q : Nat) : Nat := (q * ratio.toNat + 2 ^ 36) / 2 ^ 37

/-- The fields of a response (R91): OP, STATUS, the sixteen zeros, RESULT. -/
def Answers (rsp : Word64) (op status result : Nat) : Prop :=
  (rspOp rsp).toNat = op ∧ (rspStatus rsp).toNat = status ∧ rsp.extractLsb' 40 16 = 0#16 ∧
    (rspResult rsp).toNat = result

/-- The 16 events of a word, most significant bit first (R63, R232). -/
def wordEvents (w : Word16) : List SerialEvent :=
  (List.range 16).map (fun k => SerialEvent.bit (w.getLsbD (15 - k)))

/-- One transaction (R194): an open frame is closed first, then CS_N falls once before the first word and rises once after the
last. -/
def transaction (csN : Bool) (ws : List Word16) : List SerialEvent :=
  (if csN = false then [SerialEvent.csHigh] else []) ++ SerialEvent.csLow :: (ws.map wordEvents).flatten ++
    [SerialEvent.csHigh]

/-- FREQ_TAG(s) | payload (R191). -/
def freqWord (c : Config) (s : RegSet) (payload : Nat) : Word16 :=
  (if s = .set0 then c.freqTag0 else c.freqTag1) ||| BitVec.ofNat 16 payload

/-- W_SEL(s) (R191). -/
def selectWord (c : Config) (s : RegSet) : Word16 :=
  if s = .set0 then c.ctrlB28
  else c.ctrlB28 ||| BitVec.ofNat 16 (2 ^ c.fselBit) ||| BitVec.ofNat 16 (2 ^ c.pselBit)

/-- The number of a set. -/
def setNumber (s : RegSet) : Nat := if s = .set0 then 0 else 1

/-- What a frequency change to tuning word `tw` leaves (R193, R196, R197): the events of its one transaction to the set SEL named, SEL
flipped, the response, the lines idle; INITED, the debounce side, the configuration and the inputs as before. -/
structure Changed (op tw : Nat) (s t : State) : Prop where
  events : t.emitted = transaction s.csN
    [freqWord s.cfg s.sel (tw % 2 ^ 14), freqWord s.cfg s.sel (tw / 2 ^ 14), selectWord s.cfg s.sel]
  sel : setNumber t.sel = 1 - setNumber s.sel
  answer : Answers t.rsp op 0 (setNumber s.sel * 2 ^ 32 + tw)
  resp : t.eng = .resp
  csN : t.csN = true
  sclk : t.sclk = true
  sdata : t.sdata = (selectWord s.cfg s.sel).getLsbD 0
  inited : t.inited = s.inited
  acc : t.acc = s.acc
  pub : t.pub = s.pub
  sync : t.sync = s.sync
  cfg : t.cfg = s.cfg
  inputs : t.inputs = s.inputs
  clock : t.clock = s.clock
  beenReset : t.beenReset = s.beenReset

/-- Nothing of R32 but CMD, RSP and ENG differs, no event is emitted, and the configuration and the inputs are as before (R302). That CMD
may differ, also after an error, is the model's reading (log entry 17). -/
def OnlyAnswered (s t : State) : Prop :=
  t = { s with cmd := t.cmd, rsp := t.rsp, eng := .resp, emitted := [] }

/-- The commands that never emit an event (R71). -/
def noEvents : Instr → Bool
  | .bcdEnc8 _ => true
  | .bcdEnc10 _ => true
  | .bcdDec8 _ => true
  | .bcdDec10 _ => true
  | .tuneInt _ => true
  | .tuneFrac _ => true
  | .ddsSeti _ => false
  | .ddsSetf _ => false
  | .ddsInit => false
  | .sblSend _ _ => false
  | .sblCs _ => false
  | .debRead => true

/-- A frequency change with the tuning word it computes (R162, R163). -/
def isChange (ratio : Word32) (tw : Nat) : Instr → Prop
  | .ddsSeti f => f.toNat ≤ 33554431 ∧ tw = roundedWord ratio (f.toNat * 128)
  | .ddsSetf q => tw = roundedWord ratio q.toNat
  | .bcdEnc8 _ => False
  | .bcdEnc10 _ => False
  | .bcdDec8 _ => False
  | .bcdDec10 _ => False
  | .tuneInt _ => False
  | .tuneFrac _ => False
  | .ddsInit => False
  | .sblSend _ _ => False
  | .sblCs _ => False
  | .debRead => False

/-- The status of R92 that is reported for word `c`: the first that applies in the order of R303. -/
def reportedStatus (c : Word64) (s : State) : Nat :=
  if UnassignedOp c then 1
  else if ¬ InTable c then 2
  else if cmdOp c = 2#4 ∧ ∃ k ∈ List.range 10, 9 < nibble (cmdDataField c).toNat k then 3
  else if (cmdOp c = 2#4 ∧ 4294967295 < digitSum (cmdDataField c).toNat 10) ∨
      ((cmdOp c = 3#4 ∨ cmdOp c = 5#4) ∧ 33554431 < (cmdDataField c).toNat) then 4
  else if (cmdOp c = 5#4 ∨ cmdOp c = 6#4) ∧ s.inited = false then 5
  else 0

/-- The words that arrive at a receiver whose line is idle, from the events of one command. -/
def wordsSent (es : List SerialEvent) : List Word16 :=
  (es.foldl Receiver.event ⟨none, []⟩).frames.flatMap frameWords

/-- The default word layout of R61. -/
def DefaultWords (c : Config) : Prop :=
  c.freqTag0 = 0x4000#16 ∧ c.freqTag1 = 0x8000#16 ∧ c.phaseTag0 = 0xC000#16 ∧ c.phaseTag1 = 0xE000#16 ∧
    c.ctrlB28 = 0x2000#16 ∧ c.ctrlReset = 0x0100#16 ∧ c.fselBit = 11 ∧ c.pselBit = 10

/-- The chip after the frames of one command. -/
def chipAfter (cfg : Config) (chip : Chip) (es : List SerialEvent) : Chip :=
  (es.foldl Receiver.event ⟨none, []⟩).frames.foldl (Chip.frame cfg) chip

/-- ACC and PUB after `n` consecutive ticks with one and the same sample. -/
def afterTicks (c : Config) (asserted : Bool) : Nat → BitVec 8 × Bool → BitVec 8 × Bool
  | 0, x => x
  | n + 1, x => afterTicks c asserted n (debTick c x.1 x.2 asserted)

/-- `n` filter updates with one and the same sample. -/
def filtered (sample : Nat) : Nat → Nat → Nat
  | 0, acc => acc
  | n + 1, acc => filtered sample n (debFilter acc sample)

/-- The debounce side of two states is the same (R36, R37, R43). -/
def SameDebounce (s s' : State) : Prop :=
  s.cfg = s'.cfg ∧ s.acc = s'.acc ∧ s.pub = s'.pub ∧ s.sync = s'.sync

/-- The command side of two states is the same (R33, R35, R38, R40-R42). -/
def SameCommand (s s' : State) : Prop :=
  s.cfg = s'.cfg ∧ s.sel = s'.sel ∧ s.inited = s'.inited ∧ s.csN = s'.csN ∧ s.sclk = s'.sclk ∧ s.sdata = s'.sdata ∧
    s.gapCnt = s'.gapCnt ∧ s.eng = s'.eng ∧ s.cmd = s'.cmd ∧ s.rsp = s'.rsp ∧ s.emitted = s'.emitted

end Sys2Proof.Claims

open Sys2Proof Sys2Proof.Machine Sys2Proof.Claims

/-! ## Encoding (30_encoding.md) -/

/-- No bit of an encoding is dropped (R95, R100). -/
def Obligations.DecodeOfEncodeIsTheInstruction : Prop :=
  ∀ i : Instr, i.wf = true → decode (encode i) = .instr i

/-- Each word has one meaning: a word that decodes is the encoding of what it decodes to, which is well formed (R94, R100). -/
def Obligations.EncodeOfDecodedIsTheWord : Prop :=
  ∀ (c : Word64) (i : Instr), decode c = .instr i → encode i = c ∧ i.wf = true

/-- R98: OP 0x0 and 0xB-0xF are ILLEGAL whatever the other bits; a word with an assigned OP that fits no row of the opcode
table has a reserved bit set and is RSVD, each answered with its STATUS; every other word, and no further one, is a
command. -/
def Obligations.WordsOutsideTheTableAreIllegalOrReserved : Prop :=
  ∀ c : Word64,
    (decode c = .reject .illegal ↔ UnassignedOp c) ∧
    (decode c = .reject .rsvd ↔ ¬ UnassignedOp c ∧ ¬ InTable c) ∧
    ((∃ i, decode c = .instr i) ↔ InTable c) ∧
    (UnassignedOp c → ∀ s : State, ∃ t, performWord c s = .next t ∧ Answers t.rsp (cmdOp c).toNat 1 0) ∧
    (¬ UnassignedOp c → ¬ InTable c → ∀ s : State, ∃ t, performWord c s = .next t ∧
      Answers t.rsp (cmdOp c).toNat 2 0)

/-- Command words written out from R90 and R100, those of R102 among them, decode to the commands they stand for. -/
def Obligations.WrittenOutWordsDecode : Prop :=
  decode 0x1000000000BC614E#64 = .instr (.bcdEnc8 12345678#32) ∧
  decode 0x11000000FFFFFFFF#64 = .instr (.bcdEnc10 4294967295#32) ∧
  decode 0x2000000012345678#64 = .instr (.bcdDec8 0x12345678#32) ∧
  decode 0x2100004294967295#64 = .instr (.bcdDec10 0x4294967295#40) ∧
  decode 0x3000000001C9C380#64 = .instr (.tuneInt 30000000#32) ∧
  decode 0x40000000AE9D85D9#64 = .instr (.tuneFrac 0xAE9D85D9#32) ∧
  decode 0x5000000001C9C380#64 = .instr (.ddsSeti 30000000#32) ∧
  decode 0x6000000000000080#64 = .instr (.ddsSetf 0x80#32) ∧
  decode 0x7000000000000000#64 = .instr .ddsInit ∧
  decode 0x8F00000000002100#64 = .instr (.sblSend 16 0x2100#16) ∧
  decode 0x9100000000000000#64 = .instr (.sblCs true) ∧
  decode 0xA000000000000000#64 = .instr .debRead

/-- Whatever line the assembler accepts, every command it writes is well formed, and the three pseudo-instructions expand as
R101 says. -/
def Obligations.AssemblerWritesWellFormedCommands : Prop :=
  (∀ (m : List Char) (ops : List Nat) (is : List Instr), expand m ops = some is → ∀ i ∈ is, i.wf = true) ∧
  (∀ w v : Nat, 1 ≤ w → w ≤ 16 → v < 2 ^ 16 → expand "SBL.XFER".toList [w, v] =
    some [.sblCs true, .sblSend w (BitVec.ofNat 16 v), .sblCs false]) ∧
  (∀ v : Nat, expand "BCD.ENC".toList [8, v] = expand "BCD.ENC8".toList [v] ∧
    expand "BCD.ENC".toList [10, v] = expand "BCD.ENC10".toList [v]) ∧
  (∀ d : Nat, expand "BCD.DEC".toList [8, d] = expand "BCD.DEC8".toList [d] ∧
    expand "BCD.DEC".toList [10, d] = expand "BCD.DEC10".toList [d])

/-! ## Responses and errors (30_encoding.md R91, R92; 60_exceptions.md) -/

/-- R91, R92: whatever word is performed, the response copies its OP, has zeros in bits 55:40, a STATUS of 0-5, and RESULT 0
whenever STATUS is not 0. -/
def Obligations.EveryWordIsAnsweredInTheResponseFormat : Prop :=
  ∀ (c : Word64) (s : State), ∃ t, performWord c s = .next t ∧ t.eng = .resp ∧
    t.rsp.extractLsb' 60 4 = c.extractLsb' 60 4 ∧ t.rsp.extractLsb' 40 16 = 0#16 ∧
    (t.rsp.extractLsb' 56 4).toNat ≤ 5 ∧
    (t.rsp.extractLsb' 56 4 ≠ 0#4 → t.rsp.extractLsb' 0 40 = 0#40)

/-- R303: exactly one status is reported, the first that applies in the order ILLEGAL, RSVD, DIGIT, RANGE, NOINIT. -/
def Obligations.StatusReportedIsFirstInPriorityOrder : Prop :=
  ∀ (c : Word64) (s : State), ∃ t, performWord c s = .next t ∧ (rspStatus t.rsp).toNat = reportedStatus c s

/-- R302: a word answered with STATUS ≠ 0 writes no state of R32 but CMD (which acceptance writes: the model's reading, log
entry 17), RSP and ENG, and emits nothing. -/
def Obligations.ErrorAnswerChangesNothingElse : Prop :=
  ∀ (c : Word64) (s t : State), performWord c s = .next t → rspStatus t.rsp ≠ 0#4 → OnlyAnswered s t

/-- R300: no step stops the machine: every state has a next one. -/
def Obligations.EveryStepTakesANextState : Prop :=
  ∀ s : State, ∃ t, step s = .next t

/-! ## BCD codec (40_bcd.md) -/

/-- R136: BCD.ENC8 answers OK with the eight decimal digits of min(v, 99,999,999), packed most significant first. -/
def Obligations.BcdEnc8AnswersTheClippedDigits : Prop :=
  ∀ (v : Word32) (s : State), ∃ t, exec (.bcdEnc8 v) s = .next t ∧
    (∃ r, Answers t.rsp 1 0 r ∧ r < 16 ^ 8 ∧ ∀ k, k < 8 → nibble r k = min v.toNat 99999999 / 10 ^ k % 10) ∧
    OnlyAnswered s t

/-- R137: BCD.ENC10 answers OK with the ten decimal digits of v, unclipped. -/
def Obligations.BcdEnc10AnswersTheDigits : Prop :=
  ∀ (v : Word32) (s : State), ∃ t, exec (.bcdEnc10 v) s = .next t ∧
    (∃ r, Answers t.rsp 1 0 r ∧ ∀ k, k < 10 → nibble r k = v.toNat / 10 ^ k % 10) ∧
    OnlyAnswered s t

/-- R138: BCD.DEC8 answers the digits' value, or DIGIT where one is above 9. That CMD may change, also on an error, is the
model's reading (log entry 17). -/
def Obligations.BcdDec8AnswersTheValue : Prop :=
  ∀ (d : Word32) (s : State), ∃ t, exec (.bcdDec8 d) s = .next t ∧ OnlyAnswered s t ∧
    ((∀ k, k < 8 → nibble d.toNat k ≤ 9) → Answers t.rsp 2 0 (digitSum d.toNat 8)) ∧
    (∀ k, k < 8 → 9 < nibble d.toNat k → Answers t.rsp 2 3 0)

/-- R139: BCD.DEC10 answers the digits' value; DIGIT where one is above 9; else RANGE where the value is above 4,294,967,295.
That CMD may change, also on an error, is the model's reading (log entry 17). -/
def Obligations.BcdDec10AnswersTheValue : Prop :=
  ∀ (d : Word40) (s : State), ∃ t, exec (.bcdDec10 d) s = .next t ∧ OnlyAnswered s t ∧
    ((∀ k, k < 10 → nibble d.toNat k ≤ 9) → digitSum d.toNat 10 ≤ 4294967295 →
      Answers t.rsp 2 0 (digitSum d.toNat 10)) ∧
    ((∀ k, k < 10 → nibble d.toNat k ≤ 9) → 4294967295 < digitSum d.toNat 10 → Answers t.rsp 2 4 0) ∧
    (∀ k, k < 10 → 9 < nibble d.toNat k → Answers t.rsp 2 3 0)

/-- R133: repeated subtraction is decimal division with truncation; every digit is 0..9, and the first of ten at most 4. -/
def Obligations.RepeatedSubtractionIsDecimalDivision : Prop :=
  ∀ v n : Nat, v < 2 ^ 32 → n = 8 ∨ n = 10 →
    (bcdEncode v n).length = n ∧
    (∀ i, i < n → (bcdEncode v n)[i]? = some (clip v n / 10 ^ (n - 1 - i) % 10)) ∧
    (∀ d ∈ bcdEncode v n, d ≤ 9) ∧
    (n = 10 → ∀ d, (bcdEncode v n).head? = some d → d ≤ 4)

/-- R135: decode(encode(v, w)) = min(v, max_representable(w)); the clipping law; encode(decode(d, n), n) = d for valid d of a
value below 2^32. -/
def Obligations.BcdRoundTripLaws : Prop :=
  (∀ v, v < 2 ^ 32 → bcdDecode (bcdEncode v 8) = min v 99999999 ∧ bcdDecode (bcdEncode v 10) = v) ∧
  (∀ v, 99999999 < v → v < 2 ^ 32 → bcdEncode v 8 = bcdEncode 99999999 8) ∧
  (∀ (n : Nat) (ds : List Nat), n = 8 ∨ n = 10 → ds.length = n → (∀ d ∈ ds, d ≤ 9) → bcdDecode ds < 2 ^ 32 →
    bcdEncode (bcdDecode ds) n = ds)

/-- The round trip at the port (95_test_vectors.md S1, S2, S4): decoding what an encode command answered answers the value,
clipped for eight digits. -/
def Obligations.BcdCommandsRoundTrip : Prop :=
  ∀ (v : Word32) (s : State),
    (∃ t u, exec (.bcdEnc8 v) s = .next t ∧ exec (.bcdDec8 ((rspResult t.rsp).extractLsb' 0 32)) t = .next u ∧
      Answers u.rsp 2 0 (min v.toNat 99999999)) ∧
    (∃ t u, exec (.bcdEnc10 v) s = .next t ∧ exec (.bcdDec10 (rspResult t.rsp)) t = .next u ∧
      Answers u.rsp 2 0 v.toNat)

/-! ## Tuning calculator (41_tuning.md) -/

/-- R162, R168: TUNE.FRAC answers OK with floor(q · RATIO / 2^37 + 1/2), for every q and every RATIO. -/
def Obligations.TuneFracAnswersTheRoundedWord : Prop :=
  ∀ (q : Word32) (s : State), ∃ t, exec (.tuneFrac q) s = .next t ∧
    Answers t.rsp 4 0 (roundedWord s.cfg.ratio q.toNat) ∧ OnlyAnswered s t

/-- R163, R167: TUNE.INT answers the tuning word of f · 128 up to 33,554,431 Hz, and RANGE above. Of CMD nothing is said (log
entry 17). -/
def Obligations.TuneIntAnswersTheRoundedWordOrRange : Prop :=
  ∀ (f : Word32) (s : State), ∃ t, exec (.tuneInt f) s = .next t ∧ OnlyAnswered s t ∧
    (f.toNat ≤ 33554431 → Answers t.rsp 3 0 (roundedWord s.cfg.ratio (f.toNat * 128))) ∧
    (33554431 < f.toNat → Answers t.rsp 3 4 0)

/-- R164: the multiply never overflows; the tuning word fits; 0 gives 0; monotone; the rounding error; the values with the
default RATIO. -/
def Obligations.TuningLaws : Prop :=
  (∀ ratio q : Word32, q.toNat * ratio.toNat < 2 ^ 64 ∧ (q.toNat * ratio.toNat) >>> 36 < 2 ^ 28 ∧
    fracToTuning ratio q ≤ 2 ^ 27 ∧ (2 ^ 27 ≤ fracToTuning ratio q → fracToTuning ratio q = 2 ^ 27)) ∧
  (∀ ratio : Word32, fracToTuning ratio 0#32 = 0 ∧ intToTuning ratio 0#32 = some 0) ∧
  (∀ ratio q q' : Word32, q.toNat ≤ q'.toNat → fracToTuning ratio q ≤ fracToTuning ratio q') ∧
  (∀ ratio q : Word32, q.toNat * ratio.toNat < 2 ^ 37 * fracToTuning ratio q + 2 ^ 36 ∧
    2 ^ 37 * fracToTuning ratio q ≤ q.toNat * ratio.toNat + 2 ^ 36) ∧
  (∀ q : Word32, fracToTuning Config.default.ratio q ≤ 120095990 ∧
    (q.toNat ≤ 17 → fracToTuning Config.default.ratio q = 0)) ∧
  fracToTuning Config.default.ratio 0xFFFFFFFF#32 = 120095990 ∧ fracToTuning Config.default.ratio 18#32 = 1

/-- R165: where the dropped bit is 1 the result is rounded up, even on an exact tie; with the default RATIO no 32-bit q gives
one. -/
def Obligations.TiesRoundUpAndNeverOccurWithTheDefaultRatio : Prop :=
  (∀ ratio q : Word32, (q.toNat * ratio.toNat) / 2 ^ 36 % 2 = 1 →
    fracToTuning ratio q = q.toNat * ratio.toNat / 2 ^ 37 + 1) ∧
  (∀ q : Word32, q.toNat * Config.default.ratio.toNat % 2 ^ 37 ≠ 2 ^ 36)

/-- R169: TUNE.INT f and TUNE.FRAC (f << 7) give the same result for every f up to 33,554,431, whatever came before: the
calculator keeps nothing between commands. -/
def Obligations.TuneIntAgreesWithTuneFrac : Prop :=
  ∀ (f : Word32) (s s' : State), f.toNat ≤ 33554431 → s.cfg.ratio = s'.cfg.ratio →
    ∃ t t', exec (.tuneInt f) s = .next t ∧ exec (.tuneFrac (f <<< 7)) s' = .next t' ∧
      rspStatus t.rsp = 0#4 ∧ rspStatus t'.rsp = 0#4 ∧ rspResult t.rsp = rspResult t'.rsp

/-! ## DDS register protocol (42_dds_protocol.md) -/

/-- R196: an initialised block performs DDS.SETI up to 33,554,431 Hz: one transaction of three words to the set SEL names, SEL
flipped, RESULT the set and the tuning word. -/
def Obligations.DdsSetiLoadsTheInactiveSet : Prop :=
  ∀ (f : Word32) (s : State), s.inited = true → f.toNat ≤ 33554431 →
    ∃ t, exec (.ddsSeti f) s = .next t ∧ Changed 5 (roundedWord s.cfg.ratio (f.toNat * 128)) s t

/-- R197: the same for DDS.SETF, for every 32-bit q. -/
def Obligations.DdsSetfLoadsTheInactiveSet : Prop :=
  ∀ (q : Word32) (s : State), s.inited = true →
    ∃ t, exec (.ddsSetf q) s = .next t ∧ Changed 6 (roundedWord s.cfg.ratio q.toNat) s t

/-- R196, R197, R199: a refused frequency change answers RANGE (before NOINIT) or NOINIT, emits nothing, and changes no state
but CMD, RSP and ENG, SEL among what it leaves. That CMD is written for a refused command too is the model's reading (log
entry 17). -/
def Obligations.DdsSetRefusedLeavesEverything : Prop :=
  (∀ (f : Word32) (s : State), 33554431 < f.toNat →
    ∃ t, exec (.ddsSeti f) s = .next t ∧ Answers t.rsp 5 4 0 ∧ OnlyAnswered s t) ∧
  (∀ (f : Word32) (s : State), f.toNat ≤ 33554431 → s.inited = false →
    ∃ t, exec (.ddsSeti f) s = .next t ∧ Answers t.rsp 5 5 0 ∧ OnlyAnswered s t) ∧
  (∀ (q : Word32) (s : State), s.inited = false →
    ∃ t, exec (.ddsSetf q) s = .next t ∧ Answers t.rsp 6 5 0 ∧ OnlyAnswered s t)

/-- R195: DDS.INIT sends its eight words in one transaction, in any state, and leaves SEL = 0, INITED = 1, CS_N = 1. -/
def Obligations.DdsInitZeroesBothSets : Prop :=
  ∀ s : State, ∃ t, exec .ddsInit s = .next t ∧
    t.emitted = transaction s.csN
      [s.cfg.ctrlB28 ||| s.cfg.ctrlReset, s.cfg.freqTag0, s.cfg.freqTag0, s.cfg.freqTag1, s.cfg.freqTag1,
       s.cfg.phaseTag0, s.cfg.phaseTag1, selectWord s.cfg .set1] ∧
    t.rsp = 0x7000000000000000#64 ∧ t.eng = .resp ∧ t.sel = .set0 ∧ t.inited = true ∧ t.csN = true ∧ t.sclk = true ∧
    t.sdata = (selectWord s.cfg .set1).getLsbD 0 ∧
    t.acc = s.acc ∧ t.pub = s.pub ∧ t.sync = s.sync ∧ t.cfg = s.cfg ∧ t.inputs = s.inputs ∧ t.clock = s.clock ∧
    t.beenReset = s.beenReset

/-- R192: the two states alternate on every completed update, and DDS.INIT enters SET_B_ACTIVE from any state. -/
def Obligations.ProtocolStatesAlternate : Prop :=
  (∀ s : State, ∃ t, exec .ddsInit s = .next t ∧ t.protocol = some .setBActive) ∧
  (∀ (i : Instr) (tw : Nat) (s : State), isChange s.cfg.ratio tw i →
    (s.protocol = some .setAActive → ∃ t, exec i s = .next t ∧ t.protocol = some .setBActive) ∧
    (s.protocol = some .setBActive → ∃ t, exec i s = .next t ∧ t.protocol = some .setAActive) ∧
    (s.protocol = none → ∃ t, exec i s = .next t ∧ t.protocol = none))

/-- R201: of two consecutive frequency changes the second's RESULT[32] is one minus the first's, and after each the chip's
output source is the set its RESULT[32] names (the chip view with the default words, log entry 15). -/
def Obligations.ConsecutiveChangesAlternateTheSet : Prop :=
  ∀ (i i' : Instr) (tw tw' : Nat) (s : State) (chip : Chip), s.inited = true → DefaultWords s.cfg →
    isChange s.cfg.ratio tw i → isChange s.cfg.ratio tw' i' →
    ∃ t u, exec i s = .next t ∧ exec i' t = .next u ∧
      (rspResult u.rsp).toNat / 2 ^ 32 = 1 - (rspResult t.rsp).toNat / 2 ^ 32 ∧
      (∃ a, (chipAfter s.cfg chip t.emitted).source = some a ∧ setNumber a = (rspResult t.rsp).toNat / 2 ^ 32) ∧
      (∃ b, (chipAfter s.cfg (chipAfter s.cfg chip t.emitted) u.emitted).source = some b ∧
        setNumber b = (rspResult u.rsp).toNat / 2 ^ 32)

/-- R198 with the default words (log entry 15): DDS.INIT brings any chip to both sets and phases zero and the source the block
takes for active; each frequency change from there is glitch-free, loads its tuning word into the other set, leaves the active
set's word alone until then, and ends with the source the block takes for active again. -/
def Obligations.FrequencyChangesAreGlitchFree : Prop :=
  ∀ (s : State) (chip : Chip), DefaultWords s.cfg →
    (∃ t, exec .ddsInit s = .next t ∧
      chipAfter s.cfg chip t.emitted =
        { freq0 := some 0, freq1 := some 0, phase0 := some 0, phase1 := some 0, pending := none,
          source := t.activeSet, held := some false } ∧ t.activeSet = some .set1) ∧
    (∀ (i : Instr) (tw : Nat), isChange s.cfg.ratio tw i → s.inited = true → chip.source = s.activeSet →
      chip.pending = none →
      ∃ t, exec i s = .next t ∧ glitchFree s.cfg chip (wordsSent t.emitted) = true ∧
        (chipAfter s.cfg chip t.emitted).source = t.activeSet ∧
        (chipAfter s.cfg chip t.emitted).pending = none ∧
        (chipAfter s.cfg chip t.emitted).freq s.sel = some (BitVec.ofNat 28 tw) ∧
        (chipAfter s.cfg chip t.emitted).freq s.sel.other = chip.freq s.sel.other)

/-! ## Serial bit link (43_serial_link.md) -/

/-- R241, R232: SBL.SEND sends v[w-1], ..., v[0] and nothing else of v, leaves CS_N alone and SDATA at the last bit. -/
def Obligations.SblSendSendsTheBitsMostSignificantFirst : Prop :=
  ∀ (w : Nat) (v : Word16) (s : State), 1 ≤ w → w ≤ 16 → ∃ t, exec (.sblSend w v) s = .next t ∧
    t.emitted = (List.range w).map (fun k => SerialEvent.bit (v.getLsbD (w - 1 - k))) ∧
    t.rsp = 0x8000000000000000#64 ∧ t.csN = s.csN ∧ t.sclk = true ∧ t.sdata = v.getLsbD 0

/-- R242: SBL.CS drives CS_N to the level asked for, with one edge or, where it is there already, none. -/
def Obligations.SblCsDrivesChipSelect : Prop :=
  ∀ (l : Bool) (s : State), ∃ t, exec (.sblCs l) s = .next t ∧ t.csN = !l ∧ t.rsp = 0x9000000000000000#64 ∧
    t.emitted = (if s.csN = l then [if l then SerialEvent.csLow else SerialEvent.csHigh] else [])

/-- R244: the cycles of each command's events, a `CSLow` stalling until the count is T_GAP. -/
def Obligations.EventDurationsAreThoseOfTheTable : Prop :=
  ∀ (c : Config) (gap : Nat), c.Legal → gap ≤ c.tGap →
    (∀ (v : Word16) (w : Nat) (cs : Bool), eventsDuration c gap cs (bits v w) = w * (c.tSu + c.tLo + c.tHi)) ∧
    eventsDuration c gap true (csEvents true true) = (c.tGap - gap) + c.tCss ∧
    eventsDuration c 0 false (csEvents false false) = c.tCsh + 1 ∧
    eventsDuration c gap true (csEvents false true) = 0 ∧ eventsDuration c 0 false (csEvents true false) = 0 ∧
    (∀ ws : List Word16,
      eventsDuration c gap true (frameEvents true ws) =
        (c.tGap - gap) + c.tCss + ws.length * 16 * (c.tSu + c.tLo + c.tHi) + c.tCsh + 1 ∧
      eventsDuration c 0 false (frameEvents false ws) =
        (c.tCsh + 1) + ((c.tGap - 1) + c.tCss + ws.length * 16 * (c.tSu + c.tLo + c.tHi) + c.tCsh + 1))

/-- R233: a `Bit(b)` event holds SDATA = b for D_BIT cycles with one low pulse of SCLK in the T_LO cycles after the first
T_SU, CS_N unchanged; then the next event has begun, or the command is complete. The block has been reset (R342). -/
def Obligations.BitEventIsOneLowPulse : Prop :=
  ∀ (s : State) (b : Bool) (es : List SerialEvent) (k : Commit), s.cfg.Legal → s.beenReset = true →
    s.eng = .exec ⟨.inEvent (.bitSetup b) (s.cfg.tSu - 1), es, k⟩ → s.sclk = true → s.sdata = b →
    NoReset s.cfg.dBit s →
    (∀ m, m < s.cfg.dBit → ∃ u, runCycles m s = .next u ∧ u.sdata = b ∧ u.csN = s.csN ∧
      (u.sclk = false ↔ s.cfg.tSu ≤ m ∧ m < s.cfg.tSu + s.cfg.tLo) ∧ u.eng ≠ .resp) ∧
    (∃ u, runCycles s.cfg.dBit s = .next u ∧ u.sclk = true ∧
      match es with
      | [] => u.eng = .resp ∧ u.rsp = k.rsp
      | _ :: es' => ∃ p left, u.eng = .exec ⟨.inEvent p left, es', k⟩)

/-- R236: once CS_N has risen, or reset has set it, it stays high for at least T_GAP cycles. -/
def Obligations.ChipSelectStaysHighForTheGap : Prop :=
  ∀ (s : State) (m : Nat), Inv s → s.csN = true → s.gapCnt = 0 → m < s.cfg.tGap → NoReset m s →
    ∃ u, runCycles m s = .next u ∧ u.csN = true ∧ u.gapCnt = m

/-- R42, R236: GAP_CNT counts the cycles with CS_N = 1, saturating at T_GAP, is 0 from a rise of CS_N and while it is low, and
CS_N falls only where the count would reach T_GAP. That the count reads 0 in the very cycle CS_N falls is the model's reading
(log entry 7). -/
def Obligations.GapCounterCountsHighCycles : Prop :=
  ∀ s : State, Inv s → s.input.rst = false → ∃ t, step s = .next t ∧
    (s.csN = true → t.csN = true → t.gapCnt = min s.cfg.tGap (s.gapCnt + 1)) ∧
    (s.csN = false → t.gapCnt = 0) ∧
    (s.csN = true → t.csN = false → s.cfg.tGap ≤ s.gapCnt + 1 ∧ t.gapCnt = 0)

/-- R233, R238: SDATA changes only while SCLK is high before and after, resets apart. -/
def Obligations.SdataChangesOnlyWhileClockHigh : Prop :=
  ∀ s : State, Inv s → s.input.rst = false →
    ∃ t, step s = .next t ∧ (t.sdata ≠ s.sdata → s.sclk = true ∧ t.sclk = true)

/-! ## Debounce filter (44_debounce.md) -/

/-- R279: DEB.READ answers PUB. -/
def Obligations.DebReadAnswersThePublishedState : Prop :=
  ∀ s : State, ∃ t, exec .debRead s = .next t ∧ Answers t.rsp 10 0 (if s.pub then 1 else 0) ∧ OnlyAnswered s t

/-- R273: the update never leaves 8 bits. -/
def Obligations.FilterUpdateStaysInEightBits : Prop :=
  ∀ acc : Nat, acc ≤ 255 → acc - (acc >>> 3) ≤ 224 ∧ debFilter acc 0xFF ≤ 255 ∧ debFilter acc 0x00 ≤ 255

/-- R43, R270-R274: in every cycle the synchroniser moves; a tick writes ACC and PUB from ACC, PUB and y as held; without one
they stay. -/
def Obligations.TickUpdatesAccAndPub : Prop :=
  ∀ (s : State) (y : Bool), Inv s → s.input.rst = false → s.sync.getLast? = some y → ∃ t, step s = .next t ∧
    t.sync = s.input.rawIn :: s.sync.dropLast ∧
    (s.input.debTick = false → t.acc = s.acc ∧ t.pub = s.pub) ∧
    (s.input.debTick = true →
      t.acc.toNat = s.acc.toNat - s.acc.toNat / 8 + (if y = s.cfg.rawActiveHigh then 31 else 0) ∧
      (t.pub = true ↔
        (s.pub = false ∧ s.cfg.thHi < t.acc.toNat) ∨ (s.pub = true ∧ ¬ t.acc.toNat < s.cfg.thLo)))

/-- R270, R350: the level the debounce engine samples is `raw_in` of SYNC_STAGES cycles before, and the released level in the
first SYNC_STAGES cycles after reset. -/
def Obligations.RawInputIsSeenAfterTheSynchroniser : Prop :=
  (∀ s : State, Inv s → NoReset s.cfg.syncStages s →
    ∃ u, runCycles s.cfg.syncStages s = .next u ∧ u.syncOut = (s.inputAt 0).rawIn) ∧
  (∀ (s : State) (m : Nat), Inv s → s.sync = List.replicate s.cfg.syncStages (releasedLevel s.cfg) →
    m < s.cfg.syncStages → NoReset m s → ∃ u, runCycles m s = .next u ∧ u.rawAsserted = false)

/-- R276: with TH_HI = 160, or any TH_HI ≤ 163, at most 8 asserted ticks from PUB = 0 make PUB = 1; from ACC ≤ 7 with TH_HI =
160 exactly 8, the accumulator running as listed from 0; and PUB becomes 1 just on a tick whose ACC exceeds TH_HI. -/
def Obligations.EightAssertedTicksAssert : Prop :=
  (∀ (c : Config) (acc : BitVec 8), c.thHi ≤ 163 → ∃ n, n ≤ 8 ∧ (afterTicks c true n (acc, false)).2 = true) ∧
  (∀ (c : Config) (acc : BitVec 8), c.thHi = 160 → acc.toNat ≤ 7 →
    (∀ n, n < 8 → (afterTicks c true n (acc, false)).2 = false) ∧ (afterTicks c true 8 (acc, false)).2 = true) ∧
  (∀ c : Config, [1, 2, 3, 4, 5, 6, 7, 8].map (fun n => (afterTicks c true n (0#8, false)).1.toNat) =
    [31, 59, 83, 104, 122, 138, 152, 164]) ∧
  (∀ (c : Config) (acc : BitVec 8) (x : Bool),
    (debTick c acc false x).2 = true ↔ c.thHi < (debTick c acc false x).1.toNat)

/-- R277: with TH_LO = 96 at most 8 released ticks from PUB = 1 make PUB = 0, and from ACC ≥ 248 exactly 8; the accumulator
runs as listed from 248, and from 255 its eighth value is 91. -/
def Obligations.EightReleasedTicksRelease : Prop :=
  (∀ (c : Config) (acc : BitVec 8), c.thLo = 96 → ∃ n, n ≤ 8 ∧ (afterTicks c false n (acc, true)).2 = false) ∧
  (∀ (c : Config) (acc : BitVec 8), c.thLo = 96 → 248 ≤ acc.toNat →
    (∀ n, n < 8 → (afterTicks c false n (acc, true)).2 = true) ∧ (afterTicks c false 8 (acc, true)).2 = false) ∧
  (∀ c : Config, [1, 2, 3, 4, 5, 6, 7, 8].map (fun n => (afterTicks c false n (248#8, true)).1.toNat) =
      [217, 190, 167, 147, 129, 113, 99, 87] ∧ (afterTicks c false 8 (255#8, true)).1 = 91#8)

/-- R278: under constant samples ACC rises to 248 or falls to 7 and stays; above 7 it never returns below 7. -/
def Obligations.FilterSettlesAtItsFixedPoints : Prop :=
  (∀ acc, 248 ≤ acc → acc ≤ 255 → debFilter acc 0xFF = acc) ∧
  (∀ acc, acc ≤ 7 → debFilter acc 0x00 = acc) ∧
  (∀ acc, acc ≤ 248 → ∃ n, filtered 0xFF n acc = 248) ∧
  (∀ acc, 7 ≤ acc → acc ≤ 255 → ∃ n, filtered 0x00 n acc = 7) ∧
  (∀ acc, 7 ≤ acc → 7 ≤ debFilter acc 0xFF ∧ 7 ≤ debFilter acc 0x00)

/-! ## Frames (20_memory.md R71) -/

/-- R71: BCD.*, TUNE.* and DEB.READ change nothing but CMD, RSP and ENG and emit nothing, whatever they answer. CMD is written
also where the answer is DIGIT or RANGE: R103 has acceptance write it, against the words of R302 and R71, which is the model's
reading (log entry 17). -/
def Obligations.CommandsWithoutEventsOnlyAnswer : Prop :=
  ∀ (i : Instr) (s t : State), noEvents i = true → exec i s = .next t → OnlyAnswered s t ∧ t.cmd = encode i

/-- R71, R199, R275: what the serial commands leave alone. SBL.SEND changes only SCLK and SDATA of the block's state, SBL.CS
only CS_N and GAP_CNT (log entry 8), DDS.SET* the lines, GAP_CNT and SEL, DDS.INIT the lines, GAP_CNT, SEL and INITED; each
also CMD, RSP, ENG and the event list. That CMD may change where a frequency change is refused is the model's reading (log
entry 17). -/
def Obligations.SerialCommandsLeaveTheRest : Prop :=
  ∀ (s t : State),
    (∀ (w : Nat) (v : Word16), exec (.sblSend w v) s = .next t →
      t = { s with cmd := t.cmd, rsp := t.rsp, eng := .resp, emitted := t.emitted, sclk := t.sclk, sdata := t.sdata }) ∧
    (∀ l : Bool, exec (.sblCs l) s = .next t →
      t = { s with cmd := t.cmd, rsp := t.rsp, eng := .resp, emitted := t.emitted, csN := t.csN, gapCnt := t.gapCnt }) ∧
    (∀ i : Instr, (∃ f, i = .ddsSeti f) ∨ (∃ q, i = .ddsSetf q) → exec i s = .next t →
      t = { s with cmd := t.cmd, rsp := t.rsp, eng := .resp, emitted := t.emitted, csN := t.csN, sclk := t.sclk,
                   sdata := t.sdata, gapCnt := t.gapCnt, sel := t.sel }) ∧
    (exec .ddsInit s = .next t →
      t = { s with cmd := t.cmd, rsp := t.rsp, eng := .resp, emitted := t.emitted, csN := t.csN, sclk := t.sclk,
                   sdata := t.sdata, gapCnt := t.gapCnt, sel := t.sel, inited := t.inited })

/-! ## The port, reset and whole-machine rules (10_state.md, 30_encoding.md R103, 70_reset_and_hazards.md) -/

/-- A step runs the decoded command: the cycle that accepts a word which decodes to `i` takes over the outcome of `exec i` at
that very state (R94, R103): CMD is the word, the event list is that of the outcome, and its response, SEL and INITED are what
completion will write, or are written already where nothing is left to do. The outcome is computed at acceptance: the model's
choice (log entry 5). That the engine may be in RESP right after acceptance, without a cycle of EXEC, is the model's reading
(log entry 6). -/
def Obligations.AcceptingStepRunsTheDecodedCommand : Prop :=
  ∀ (s t : State) (c : Word64) (i : Instr), Accepts s c → decode c = .instr i → exec i s = .next t →
    step s = .next ((State.begin c t s).debounceEdge s.input).passCycle ∧
    (State.begin c t s).cmd = c ∧ (State.begin c t s).emitted = t.emitted ∧
    ((∃ j, (State.begin c t s).eng = .exec j ∧ j.commit = ⟨t.rsp, t.sel, t.inited⟩ ∧
        (State.begin c t s).rsp = s.rsp ∧ (State.begin c t s).sel = s.sel ∧ (State.begin c t s).inited = s.inited) ∨
      (t.emitted = [] ∧ (State.begin c t s).eng = .resp ∧ (State.begin c t s).rsp = t.rsp ∧
        (State.begin c t s).sel = t.sel ∧ (State.begin c t s).inited = t.inited))

/-- The two levels of R15 agree: from the cycle that accepts a command word, if no reset comes, the response first appears
exactly `commandDuration` cycles later, and then CMD, RSP, SEL, INITED and the lines are those of the command's
transaction-level outcome, and a receiver on the lines has seen exactly its serial events, in order (R105, R231, R237, R238,
R353). The model's readings in log entries 5, 6 and 7 are part of the cycle level. -/
def Obligations.CycleLevelAgreesWithTransactionLevel : Prop :=
  ∀ (s : State) (c : Word64) (r : Receiver), Inv s → Accepts s c →
    ∃ t, performWord c s = .next t ∧
      (NoReset (commandDuration s t) s →
        (∀ m, 0 < m → m < commandDuration s t → ∃ u, runCycles m s = .next u ∧ ∃ j, u.eng = .exec j) ∧
        ∃ u, watch (commandDuration s t) s r = some (u, t.emitted.foldl Receiver.event r) ∧
          u.eng = .resp ∧ u.cmd = t.cmd ∧ u.rsp = t.rsp ∧ u.sel = t.sel ∧ u.inited = t.inited ∧ u.csN = t.csN ∧
          u.sclk = t.sclk ∧ u.sdata = t.sdata ∧ u.emitted = t.emitted ∧ u.cfg = t.cfg)

/-- R32: the state right after reset, row by row, for every configuration. That `State.reset` has the default configuration,
with REF and LAT_COMPUTE = 1 for the OPEN values, is the model's choice (log entry 2). -/
def Obligations.ResetStateHasTheResetValues : Prop :=
  State.reset = State.resetWith Config.default ∧
  ∀ c : Config, (State.resetWith c).sel = .set0 ∧ (State.resetWith c).inited = false ∧ (State.resetWith c).acc = 0#8 ∧
    (State.resetWith c).pub = false ∧ (State.resetWith c).csN = true ∧ (State.resetWith c).sclk = true ∧
    (State.resetWith c).sdata = false ∧ (State.resetWith c).gapCnt = 0 ∧
    (State.resetWith c).sync = List.replicate c.syncStages (!c.rawActiveHigh) ∧ (State.resetWith c).eng = .idle ∧
    (State.resetWith c).cmd = 0#64 ∧ (State.resetWith c).rsp = 0#64 ∧ (State.resetWith c).beenReset = true

/-- R340, R341: a cycle with `rst` = 1 writes every row of R32 with its reset value, from any state and whatever else its
inputs ask; the configuration stays. -/
def Obligations.ResetCycleWritesEveryElement : Prop :=
  ∀ s : State, s.input.rst = true → ∃ t, step s = .next t ∧
    t.sel = .set0 ∧ t.inited = false ∧ t.acc = 0#8 ∧ t.pub = false ∧ t.csN = true ∧ t.sclk = true ∧ t.sdata = false ∧
    t.gapCnt = 0 ∧ t.sync = List.replicate s.cfg.syncStages (!s.cfg.rawActiveHigh) ∧ t.eng = .idle ∧ t.cmd = 0#64 ∧
    t.rsp = 0#64 ∧ t.cfg = s.cfg ∧ t.beenReset = true ∧ s.cmdReady s.input = false ∧ s.rspValid s.input = false

/-- R342, R340, R47: before the first reset nothing is fixed. From a state of a block not yet reset, a cycle with `rst` = 0
keeps the configuration and leaves a block not yet reset, whose elements do not depend on what they were, nor on what the
inputs of the cycle asked; SYNC keeps its width. A cycle with `rst` = 1 ends it from any such state: the elements take their
reset values and, with a legal configuration, the invariant holds. That the unspecified values are free values indexed by the
cycle is the model's (log entry 11). -/
def Obligations.BeforeTheFirstResetNothingIsFixed : Prop :=
  (∀ s : State, s.beenReset = false → s.input.rst = false → ∃ t, step s = .next t ∧ t.beenReset = false ∧ t.cfg = s.cfg ∧
    t.inputs = s.inputs.tail ∧ t.sync.length = s.cfg.syncStages ∧
    ∀ s' : State, s'.beenReset = false → s'.input.rst = false → s'.cfg = s.cfg → s'.clock = s.clock →
      step s' = .next { t with inputs := s'.inputs.tail }) ∧
  (∀ s : State, s.beenReset = false → s.cfg.Legal → s.input.rst = true → ∃ t, step s = .next t ∧ Inv t ∧
    t = { State.resetWith s.cfg with inputs := s.inputs.tail, clock := s.clock + 1 })

/-- The invariant holds right after reset, for every legal configuration, and the defaults are legal (log entries 2 and 4). -/
def Obligations.InvariantHoldsAfterReset : Prop :=
  Config.default.Legal ∧ Inv State.reset ∧ ∀ c : Config, c.Legal → Inv (State.resetWith c)

/-- Every step, from any state that meets it, keeps the invariant: the waveform levels of every phase (R233-R235), SCLK idle
high (R38), GAP_CNT's bound (R236), the hysteresis bounds (R278), the synchroniser's length (R43), the response format (R91),
and that a command in progress will answer the word in CMD and change SEL and INITED only as R199 and R35 allow. -/
def Obligations.EveryStepKeepsTheInvariant : Prop :=
  ∀ s t : State, Inv s → step s = .next t → Inv t

/-- R199, R341: SEL changes only in a cycle with `rst` = 1 or at the completion of a DDS.SETI, DDS.SETF or DDS.INIT answered
OK. -/
def Obligations.SelectorChangesOnlyAtCompletion : Prop :=
  ∀ s t : State, Inv s → step s = .next t → t.sel ≠ s.sel →
    s.input.rst = true ∨
    ((∃ j, s.eng = .exec j ∧ t.rsp = j.commit.rsp ∧ t.sel = j.commit.sel) ∧ t.eng = .resp ∧ rspStatus t.rsp = 0#4 ∧
      (cmdOp t.cmd = 5#4 ∨ cmdOp t.cmd = 6#4 ∨ cmdOp t.cmd = 7#4))

/-- R35: INITED becomes 1 only at the completion of a DDS.INIT answered OK, and is never cleared except by reset. -/
def Obligations.InitedIsClearedOnlyByReset : Prop :=
  ∀ s t : State, Inv s → step s = .next t →
    (s.inited = true → t.inited = false → s.input.rst = true) ∧
    (s.inited = false → t.inited = true → t.eng = .resp ∧ rspStatus t.rsp = 0#4 ∧ cmdOp t.cmd = 7#4)

/-- R47: the parameters are fixed for the life of the block: no command writes them, and reset does not change them. -/
def Obligations.ConfigurationIsNeverWritten : Prop :=
  (∀ (c : Word64) (s t : State), performWord c s = .next t → t.cfg = s.cfg) ∧
  (∀ s t : State, step s = .next t → t.cfg = s.cfg)

/-- R103, R346, from the first reset on (R342): with `rst` = 0 a command is accepted exactly in IDLE with `cmd_valid` = 1;
then the engine leaves IDLE; a response stays until `rsp_ready` = 1 and then gives way to IDLE; at most one command is
outstanding. That EXEC may last no cycle is the model's reading (log entry 6). -/
def Obligations.PortHandshake : Prop :=
  ∀ s : State, s.beenReset = true → s.input.rst = false → ∃ t, step s = .next t ∧
    (s.cmdReady s.input = true ↔ s.eng = .idle) ∧ (s.rspValid s.input = true ↔ s.eng = .resp) ∧
    (s.eng = .idle → s.input.cmdValid = true → t.cmd = s.input.cmdData ∧ t.eng ≠ .idle) ∧
    (s.eng = .idle → s.input.cmdValid = false → t.cmd = s.cmd ∧ t.eng = .idle) ∧
    (s.eng ≠ .idle → t.cmd = s.cmd) ∧
    (s.eng = .resp → s.input.rspReady = true → t.eng = .idle) ∧
    (s.eng = .resp → s.input.rspReady = false → t.eng = .resp) ∧
    (∀ j, s.eng = .exec j → t.eng ≠ .idle)

/-- R104: `cmd_data` is read only in the acceptance cycle, so in any other cycle any word there, and outside IDLE any
`cmd_valid`, gives the same next state; and RSP, from the first reset on (R342), does not change while ENG = RESP. -/
def Obligations.CommandDataIsReadOnlyAtAcceptance : Prop :=
  (∀ (s : State) (p p' : PortIn) (ps : List PortIn),
    p'.rst = p.rst → p'.rspReady = p.rspReady → p'.rawIn = p.rawIn → p'.debTick = p.debTick →
    ((s.eng = .idle ∧ p.cmdValid = false ∧ p'.cmdValid = false) ∨ s.eng ≠ .idle) →
    step { s with inputs := p :: ps } = step { s with inputs := p' :: ps }) ∧
  (∀ s t : State, s.beenReset = true → s.eng = .resp → s.input.rst = false → step s = .next t → t.rsp = s.rsp)

/-- R275, R352, from the first reset on (R342): no command touches the debounce engine: ACC, PUB and SYNC after a cycle depend
only on themselves, `rst`, `raw_in` and `deb_tick`, whatever the command engine and the host do. -/
def Obligations.CommandsNeverTouchTheDebounceEngine : Prop :=
  ∀ s s' t t' : State, s.beenReset = true → s'.beenReset = true → SameDebounce s s' → s.input.rst = s'.input.rst → s.input.rawIn = s'.input.rawIn →
    s.input.debTick = s'.input.debTick → step s = .next t → step s' = .next t' → SameDebounce t t'

/-- R44, R305, from the first reset on (R342): the command engine, its responses and the lines see nothing of the debounce
engine but PUB: ACC, SYNC, `raw_in` and `deb_tick` do not show in them after a cycle that starts with equal PUB. -/
def Obligations.CommandEngineSeesOnlyPub : Prop :=
  ∀ s s' t t' : State, s.beenReset = true → s'.beenReset = true → SameCommand s s' → s.pub = s'.pub → s.input.rst = s'.input.rst →
    s.input.cmdValid = s'.input.cmdValid → s.input.cmdData = s'.input.cmdData →
    s.input.rspReady = s'.input.rspReady → step s = .next t → step s' = .next t' → SameCommand t t'
end

