-- ==== Sys2Proof/Laws/Encoding.lean ====
section
/-! SUPPORT. The fields of a word put together from four parts: CMD64 (30_encoding.md R90) and RSP64 (R91) have the same cut. -/

namespace Sys2Proof

section Quad

variable (a b : BitVec 4) (c : BitVec 16) (d : BitVec 40)

theorem quad_op : (a ++ b ++ c ++ d : BitVec 64).extractLsb' 60 4 = a := by
  rw [BitVec.extractLsb'_append_eq_of_le (by decide), BitVec.extractLsb'_append_eq_of_le (by decide),
    BitVec.extractLsb'_append_eq_of_le (by decide)]
  exact BitVec.extractLsb'_eq_self

theorem quad_aux : (a ++ b ++ c ++ d : BitVec 64).extractLsb' 56 4 = b := by
  rw [BitVec.extractLsb'_append_eq_of_le (by decide), BitVec.extractLsb'_append_eq_of_le (by decide),
    BitVec.extractLsb'_append_eq_of_add_le (by decide)]
  exact BitVec.extractLsb'_eq_self

theorem quad_mid : (a ++ b ++ c ++ d : BitVec 64).extractLsb' 40 16 = c := by
  rw [BitVec.extractLsb'_append_eq_of_le (by decide), BitVec.extractLsb'_append_eq_of_add_le (by decide)]
  exact BitVec.extractLsb'_eq_self

theorem quad_data : (a ++ b ++ c ++ d : BitVec 64).extractLsb' 0 40 = d := by
  rw [BitVec.extractLsb'_append_eq_of_add_le (by decide)]
  exact BitVec.extractLsb'_eq_self

end Quad

/-- Every word is its four fields. -/
theorem word_eq_fields (c : Word64) : c = cmdOp c ++ cmdAux c ++ cmdRsvd c ++ cmdDataField c := by
  unfold cmdOp cmdAux cmdRsvd cmdDataField
  apply BitVec.eq_of_getLsbD_eq
  intro i hi
  simp only [BitVec.getLsbD_append, BitVec.getLsbD_extractLsb']
  split_ifs with h1 h2 h3
  · simp [h1]
  · rw [show 40 + (i - 40) = i by omega]; simp [h2]
  · rw [show 56 + (i - 40 - 16) = i by omega]; simp [h3]
  · rw [show 60 + (i - 40 - 16 - 4) = i by omega, decide_eq_true (by omega : i - 40 - 16 - 4 < 4), Bool.true_and]

@[simp] theorem cmdOp_cmdWord (op aux : Nibble) (data : Word40) : cmdOp (cmdWord op aux data) = op := quad_op _ _ _ _
@[simp] theorem cmdAux_cmdWord (op aux : Nibble) (data : Word40) : cmdAux (cmdWord op aux data) = aux :=
  quad_aux _ _ _ _
@[simp] theorem cmdRsvd_cmdWord (op aux : Nibble) (data : Word40) : cmdRsvd (cmdWord op aux data) = 0#16 :=
  quad_mid _ _ _ _
@[simp] theorem cmdDataField_cmdWord (op aux : Nibble) (data : Word40) : cmdDataField (cmdWord op aux data) = data :=
  quad_data _ _ _ _

/-- OP of each instruction (R93). -/
def opOf : Instr → Nibble
  | .bcdEnc8 _ => 0x1#4
  | .bcdEnc10 _ => 0x1#4
  | .bcdDec8 _ => 0x2#4
  | .bcdDec10 _ => 0x2#4
  | .tuneInt _ => 0x3#4
  | .tuneFrac _ => 0x4#4
  | .ddsSeti _ => 0x5#4
  | .ddsSetf _ => 0x6#4
  | .ddsInit => 0x7#4
  | .sblSend _ _ => 0x8#4
  | .sblCs _ => 0x9#4
  | .debRead => 0xA#4

theorem cmdOp_encode (i : Instr) : cmdOp (encode i) = opOf i := by
  cases i <;> exact cmdOp_cmdWord _ _ _

theorem cmdRsvd_encode (i : Instr) : cmdRsvd (encode i) = 0#16 := by
  cases i <;> exact cmdRsvd_cmdWord _ _ _

theorem opOf_opcodeRow {op aux : Nibble} {data : Word40} {row : Row} (h : opcodeRow op aux data = some row) :
    opOf row.instr = op := by
  unfold opcodeRow at h
  repeat' split at h
  all_goals cases h
  all_goals simp [opOf, *]

/-- A decoded instruction has the OP of its word (R93). -/
theorem opOf_of_decode {c : Word64} {i : Instr} (h : decode c = .instr i) : opOf i = cmdOp c := by
  unfold decode at h
  split at h
  · exact absurd h (by simp)
  · rename_i row hr
    split at h
    · exact absurd h (by simp)
    · cases h; exact opOf_opcodeRow hr

end Sys2Proof
end

