-- ==== Sys2Proof/Laws/State.lean ====
section
/-! SUPPORT. One lemma per field per update of the state, each true by rfl, so that no later proof unfolds a record update. -/

namespace Sys2Proof.Machine.State

variable (s : State)

/-! ### accept -/

@[simp] theorem accept_sel (c : Word64) : (s.accept c).sel = s.sel := rfl
@[simp] theorem accept_inited (c : Word64) : (s.accept c).inited = s.inited := rfl
@[simp] theorem accept_acc (c : Word64) : (s.accept c).acc = s.acc := rfl
@[simp] theorem accept_pub (c : Word64) : (s.accept c).pub = s.pub := rfl
@[simp] theorem accept_csN (c : Word64) : (s.accept c).csN = s.csN := rfl
@[simp] theorem accept_sclk (c : Word64) : (s.accept c).sclk = s.sclk := rfl
@[simp] theorem accept_sdata (c : Word64) : (s.accept c).sdata = s.sdata := rfl
@[simp] theorem accept_gapCnt (c : Word64) : (s.accept c).gapCnt = s.gapCnt := rfl
@[simp] theorem accept_sync (c : Word64) : (s.accept c).sync = s.sync := rfl
@[simp] theorem accept_eng (c : Word64) : (s.accept c).eng = s.eng := rfl
@[simp] theorem accept_cmd (c : Word64) : (s.accept c).cmd = c := rfl
@[simp] theorem accept_rsp (c : Word64) : (s.accept c).rsp = s.rsp := rfl
@[simp] theorem accept_emitted (c : Word64) : (s.accept c).emitted = [] := rfl
@[simp] theorem accept_cfg (c : Word64) : (s.accept c).cfg = s.cfg := rfl
@[simp] theorem accept_inputs (c : Word64) : (s.accept c).inputs = s.inputs := rfl
@[simp] theorem accept_clock (c : Word64) : (s.accept c).clock = s.clock := rfl
@[simp] theorem accept_beenReset (c : Word64) : (s.accept c).beenReset = s.beenReset := rfl

/-! ### respond -/

@[simp] theorem respond_sel (st : Status) (r : Word40) : (s.respond st r).sel = s.sel := rfl
@[simp] theorem respond_inited (st : Status) (r : Word40) : (s.respond st r).inited = s.inited := rfl
@[simp] theorem respond_acc (st : Status) (r : Word40) : (s.respond st r).acc = s.acc := rfl
@[simp] theorem respond_pub (st : Status) (r : Word40) : (s.respond st r).pub = s.pub := rfl
@[simp] theorem respond_csN (st : Status) (r : Word40) : (s.respond st r).csN = s.csN := rfl
@[simp] theorem respond_sclk (st : Status) (r : Word40) : (s.respond st r).sclk = s.sclk := rfl
@[simp] theorem respond_sdata (st : Status) (r : Word40) : (s.respond st r).sdata = s.sdata := rfl
@[simp] theorem respond_gapCnt (st : Status) (r : Word40) : (s.respond st r).gapCnt = s.gapCnt := rfl
@[simp] theorem respond_sync (st : Status) (r : Word40) : (s.respond st r).sync = s.sync := rfl
@[simp] theorem respond_eng (st : Status) (r : Word40) : (s.respond st r).eng = .resp := rfl
@[simp] theorem respond_cmd (st : Status) (r : Word40) : (s.respond st r).cmd = s.cmd := rfl
@[simp] theorem respond_rsp (st : Status) (r : Word40) : (s.respond st r).rsp = rspWord (cmdOp s.cmd) st r := rfl
@[simp] theorem respond_emitted (st : Status) (r : Word40) : (s.respond st r).emitted = s.emitted := rfl
@[simp] theorem respond_cfg (st : Status) (r : Word40) : (s.respond st r).cfg = s.cfg := rfl
@[simp] theorem respond_inputs (st : Status) (r : Word40) : (s.respond st r).inputs = s.inputs := rfl
@[simp] theorem respond_clock (st : Status) (r : Word40) : (s.respond st r).clock = s.clock := rfl
@[simp] theorem respond_beenReset (st : Status) (r : Word40) : (s.respond st r).beenReset = s.beenReset := rfl

/-! ### raise -/

@[simp] theorem raise_sel (st : Status) : (s.raise st).sel = s.sel := rfl
@[simp] theorem raise_inited (st : Status) : (s.raise st).inited = s.inited := rfl
@[simp] theorem raise_acc (st : Status) : (s.raise st).acc = s.acc := rfl
@[simp] theorem raise_pub (st : Status) : (s.raise st).pub = s.pub := rfl
@[simp] theorem raise_csN (st : Status) : (s.raise st).csN = s.csN := rfl
@[simp] theorem raise_sclk (st : Status) : (s.raise st).sclk = s.sclk := rfl
@[simp] theorem raise_sdata (st : Status) : (s.raise st).sdata = s.sdata := rfl
@[simp] theorem raise_gapCnt (st : Status) : (s.raise st).gapCnt = s.gapCnt := rfl
@[simp] theorem raise_sync (st : Status) : (s.raise st).sync = s.sync := rfl
@[simp] theorem raise_eng (st : Status) : (s.raise st).eng = .resp := rfl
@[simp] theorem raise_cmd (st : Status) : (s.raise st).cmd = s.cmd := rfl
@[simp] theorem raise_rsp (st : Status) : (s.raise st).rsp = rspWord (cmdOp s.cmd) st 0#40 := rfl
@[simp] theorem raise_emitted (st : Status) : (s.raise st).emitted = s.emitted := rfl
@[simp] theorem raise_cfg (st : Status) : (s.raise st).cfg = s.cfg := rfl
@[simp] theorem raise_inputs (st : Status) : (s.raise st).inputs = s.inputs := rfl
@[simp] theorem raise_clock (st : Status) : (s.raise st).clock = s.clock := rfl
@[simp] theorem raise_beenReset (st : Status) : (s.raise st).beenReset = s.beenReset := rfl

/-! ### reject -/

@[simp] theorem reject_sel (c : Word64) (r : Reject) : (s.reject c r).sel = s.sel := rfl
@[simp] theorem reject_inited (c : Word64) (r : Reject) : (s.reject c r).inited = s.inited := rfl
@[simp] theorem reject_acc (c : Word64) (r : Reject) : (s.reject c r).acc = s.acc := rfl
@[simp] theorem reject_pub (c : Word64) (r : Reject) : (s.reject c r).pub = s.pub := rfl
@[simp] theorem reject_csN (c : Word64) (r : Reject) : (s.reject c r).csN = s.csN := rfl
@[simp] theorem reject_sclk (c : Word64) (r : Reject) : (s.reject c r).sclk = s.sclk := rfl
@[simp] theorem reject_sdata (c : Word64) (r : Reject) : (s.reject c r).sdata = s.sdata := rfl
@[simp] theorem reject_gapCnt (c : Word64) (r : Reject) : (s.reject c r).gapCnt = s.gapCnt := rfl
@[simp] theorem reject_sync (c : Word64) (r : Reject) : (s.reject c r).sync = s.sync := rfl
@[simp] theorem reject_eng (c : Word64) (r : Reject) : (s.reject c r).eng = .resp := rfl
@[simp] theorem reject_cmd (c : Word64) (r : Reject) : (s.reject c r).cmd = c := rfl
@[simp] theorem reject_rsp (c : Word64) (r : Reject) : (s.reject c r).rsp = rspWord (cmdOp c) (Status.ofReject r) 0#40 := rfl
@[simp] theorem reject_emitted (c : Word64) (r : Reject) : (s.reject c r).emitted = [] := rfl
@[simp] theorem reject_cfg (c : Word64) (r : Reject) : (s.reject c r).cfg = s.cfg := rfl
@[simp] theorem reject_inputs (c : Word64) (r : Reject) : (s.reject c r).inputs = s.inputs := rfl
@[simp] theorem reject_clock (c : Word64) (r : Reject) : (s.reject c r).clock = s.clock := rfl
@[simp] theorem reject_beenReset (c : Word64) (r : Reject) : (s.reject c r).beenReset = s.beenReset := rfl

/-! ### perform_csLow -/

@[simp] theorem perform_csLow_sel : (s.perform .csLow).sel = s.sel := rfl
@[simp] theorem perform_csLow_inited : (s.perform .csLow).inited = s.inited := rfl
@[simp] theorem perform_csLow_acc : (s.perform .csLow).acc = s.acc := rfl
@[simp] theorem perform_csLow_pub : (s.perform .csLow).pub = s.pub := rfl
@[simp] theorem perform_csLow_csN : (s.perform .csLow).csN = false := rfl
@[simp] theorem perform_csLow_sclk : (s.perform .csLow).sclk = s.sclk := rfl
@[simp] theorem perform_csLow_sdata : (s.perform .csLow).sdata = s.sdata := rfl
@[simp] theorem perform_csLow_gapCnt : (s.perform .csLow).gapCnt = 0 := rfl
@[simp] theorem perform_csLow_sync : (s.perform .csLow).sync = s.sync := rfl
@[simp] theorem perform_csLow_eng : (s.perform .csLow).eng = s.eng := rfl
@[simp] theorem perform_csLow_cmd : (s.perform .csLow).cmd = s.cmd := rfl
@[simp] theorem perform_csLow_rsp : (s.perform .csLow).rsp = s.rsp := rfl
@[simp] theorem perform_csLow_emitted : (s.perform .csLow).emitted = s.emitted := rfl
@[simp] theorem perform_csLow_cfg : (s.perform .csLow).cfg = s.cfg := rfl
@[simp] theorem perform_csLow_inputs : (s.perform .csLow).inputs = s.inputs := rfl
@[simp] theorem perform_csLow_clock : (s.perform .csLow).clock = s.clock := rfl
@[simp] theorem perform_csLow_beenReset : (s.perform .csLow).beenReset = s.beenReset := rfl

/-! ### perform_csHigh -/

@[simp] theorem perform_csHigh_sel : (s.perform .csHigh).sel = s.sel := rfl
@[simp] theorem perform_csHigh_inited : (s.perform .csHigh).inited = s.inited := rfl
@[simp] theorem perform_csHigh_acc : (s.perform .csHigh).acc = s.acc := rfl
@[simp] theorem perform_csHigh_pub : (s.perform .csHigh).pub = s.pub := rfl
@[simp] theorem perform_csHigh_csN : (s.perform .csHigh).csN = true := rfl
@[simp] theorem perform_csHigh_sclk : (s.perform .csHigh).sclk = s.sclk := rfl
@[simp] theorem perform_csHigh_sdata : (s.perform .csHigh).sdata = s.sdata := rfl
@[simp] theorem perform_csHigh_gapCnt : (s.perform .csHigh).gapCnt = 0 := rfl
@[simp] theorem perform_csHigh_sync : (s.perform .csHigh).sync = s.sync := rfl
@[simp] theorem perform_csHigh_eng : (s.perform .csHigh).eng = s.eng := rfl
@[simp] theorem perform_csHigh_cmd : (s.perform .csHigh).cmd = s.cmd := rfl
@[simp] theorem perform_csHigh_rsp : (s.perform .csHigh).rsp = s.rsp := rfl
@[simp] theorem perform_csHigh_emitted : (s.perform .csHigh).emitted = s.emitted := rfl
@[simp] theorem perform_csHigh_cfg : (s.perform .csHigh).cfg = s.cfg := rfl
@[simp] theorem perform_csHigh_inputs : (s.perform .csHigh).inputs = s.inputs := rfl
@[simp] theorem perform_csHigh_clock : (s.perform .csHigh).clock = s.clock := rfl
@[simp] theorem perform_csHigh_beenReset : (s.perform .csHigh).beenReset = s.beenReset := rfl

/-! ### perform_bit -/

@[simp] theorem perform_bit_sel (b : Bool) : (s.perform (.bit b)).sel = s.sel := rfl
@[simp] theorem perform_bit_inited (b : Bool) : (s.perform (.bit b)).inited = s.inited := rfl
@[simp] theorem perform_bit_acc (b : Bool) : (s.perform (.bit b)).acc = s.acc := rfl
@[simp] theorem perform_bit_pub (b : Bool) : (s.perform (.bit b)).pub = s.pub := rfl
@[simp] theorem perform_bit_csN (b : Bool) : (s.perform (.bit b)).csN = s.csN := rfl
@[simp] theorem perform_bit_sclk (b : Bool) : (s.perform (.bit b)).sclk = true := rfl
@[simp] theorem perform_bit_sdata (b : Bool) : (s.perform (.bit b)).sdata = b := rfl
@[simp] theorem perform_bit_gapCnt (b : Bool) : (s.perform (.bit b)).gapCnt = s.gapCnt := rfl
@[simp] theorem perform_bit_sync (b : Bool) : (s.perform (.bit b)).sync = s.sync := rfl
@[simp] theorem perform_bit_eng (b : Bool) : (s.perform (.bit b)).eng = s.eng := rfl
@[simp] theorem perform_bit_cmd (b : Bool) : (s.perform (.bit b)).cmd = s.cmd := rfl
@[simp] theorem perform_bit_rsp (b : Bool) : (s.perform (.bit b)).rsp = s.rsp := rfl
@[simp] theorem perform_bit_emitted (b : Bool) : (s.perform (.bit b)).emitted = s.emitted := rfl
@[simp] theorem perform_bit_cfg (b : Bool) : (s.perform (.bit b)).cfg = s.cfg := rfl
@[simp] theorem perform_bit_inputs (b : Bool) : (s.perform (.bit b)).inputs = s.inputs := rfl
@[simp] theorem perform_bit_clock (b : Bool) : (s.perform (.bit b)).clock = s.clock := rfl
@[simp] theorem perform_bit_beenReset (b : Bool) : (s.perform (.bit b)).beenReset = s.beenReset := rfl

/-! ### countGap -/

@[simp] theorem countGap_sel : (s.countGap).sel = s.sel := rfl
@[simp] theorem countGap_inited : (s.countGap).inited = s.inited := rfl
@[simp] theorem countGap_acc : (s.countGap).acc = s.acc := rfl
@[simp] theorem countGap_pub : (s.countGap).pub = s.pub := rfl
@[simp] theorem countGap_csN : (s.countGap).csN = s.csN := rfl
@[simp] theorem countGap_sclk : (s.countGap).sclk = s.sclk := rfl
@[simp] theorem countGap_sdata : (s.countGap).sdata = s.sdata := rfl
@[simp] theorem countGap_gapCnt : (s.countGap).gapCnt = if s.csN then min s.cfg.tGap (s.gapCnt + 1) else 0 := rfl
@[simp] theorem countGap_sync : (s.countGap).sync = s.sync := rfl
@[simp] theorem countGap_eng : (s.countGap).eng = s.eng := rfl
@[simp] theorem countGap_cmd : (s.countGap).cmd = s.cmd := rfl
@[simp] theorem countGap_rsp : (s.countGap).rsp = s.rsp := rfl
@[simp] theorem countGap_emitted : (s.countGap).emitted = s.emitted := rfl
@[simp] theorem countGap_cfg : (s.countGap).cfg = s.cfg := rfl
@[simp] theorem countGap_inputs : (s.countGap).inputs = s.inputs := rfl
@[simp] theorem countGap_clock : (s.countGap).clock = s.clock := rfl
@[simp] theorem countGap_beenReset : (s.countGap).beenReset = s.beenReset := rfl

/-! ### complete -/

@[simp] theorem complete_sel (k : Commit) : (s.complete k).sel = k.sel := rfl
@[simp] theorem complete_inited (k : Commit) : (s.complete k).inited = k.inited := rfl
@[simp] theorem complete_acc (k : Commit) : (s.complete k).acc = s.acc := rfl
@[simp] theorem complete_pub (k : Commit) : (s.complete k).pub = s.pub := rfl
@[simp] theorem complete_csN (k : Commit) : (s.complete k).csN = s.csN := rfl
@[simp] theorem complete_sclk (k : Commit) : (s.complete k).sclk = s.sclk := rfl
@[simp] theorem complete_sdata (k : Commit) : (s.complete k).sdata = s.sdata := rfl
@[simp] theorem complete_gapCnt (k : Commit) : (s.complete k).gapCnt = s.gapCnt := rfl
@[simp] theorem complete_sync (k : Commit) : (s.complete k).sync = s.sync := rfl
@[simp] theorem complete_eng (k : Commit) : (s.complete k).eng = .resp := rfl
@[simp] theorem complete_cmd (k : Commit) : (s.complete k).cmd = s.cmd := rfl
@[simp] theorem complete_rsp (k : Commit) : (s.complete k).rsp = k.rsp := rfl
@[simp] theorem complete_emitted (k : Commit) : (s.complete k).emitted = s.emitted := rfl
@[simp] theorem complete_cfg (k : Commit) : (s.complete k).cfg = s.cfg := rfl
@[simp] theorem complete_inputs (k : Commit) : (s.complete k).inputs = s.inputs := rfl
@[simp] theorem complete_clock (k : Commit) : (s.complete k).clock = s.clock := rfl
@[simp] theorem complete_beenReset (k : Commit) : (s.complete k).beenReset = s.beenReset := rfl

/-! ### inPhase -/

@[simp] theorem inPhase_sel (p : Phase) (hold : Nat) (es : List SerialEvent) (k : Commit) : (s.inPhase p hold es k).sel = s.sel := rfl
@[simp] theorem inPhase_inited (p : Phase) (hold : Nat) (es : List SerialEvent) (k : Commit) : (s.inPhase p hold es k).inited = s.inited := rfl
@[simp] theorem inPhase_acc (p : Phase) (hold : Nat) (es : List SerialEvent) (k : Commit) : (s.inPhase p hold es k).acc = s.acc := rfl
@[simp] theorem inPhase_pub (p : Phase) (hold : Nat) (es : List SerialEvent) (k : Commit) : (s.inPhase p hold es k).pub = s.pub := rfl
@[simp] theorem inPhase_csN (p : Phase) (hold : Nat) (es : List SerialEvent) (k : Commit) : (s.inPhase p hold es k).csN = s.csN := rfl
@[simp] theorem inPhase_sclk (p : Phase) (hold : Nat) (es : List SerialEvent) (k : Commit) : (s.inPhase p hold es k).sclk = s.sclk := rfl
@[simp] theorem inPhase_sdata (p : Phase) (hold : Nat) (es : List SerialEvent) (k : Commit) : (s.inPhase p hold es k).sdata = s.sdata := rfl
@[simp] theorem inPhase_gapCnt (p : Phase) (hold : Nat) (es : List SerialEvent) (k : Commit) : (s.inPhase p hold es k).gapCnt = s.gapCnt := rfl
@[simp] theorem inPhase_sync (p : Phase) (hold : Nat) (es : List SerialEvent) (k : Commit) : (s.inPhase p hold es k).sync = s.sync := rfl
@[simp] theorem inPhase_eng (p : Phase) (hold : Nat) (es : List SerialEvent) (k : Commit) : (s.inPhase p hold es k).eng = .exec ⟨.inEvent p (hold - 1), es, k⟩ := rfl
@[simp] theorem inPhase_cmd (p : Phase) (hold : Nat) (es : List SerialEvent) (k : Commit) : (s.inPhase p hold es k).cmd = s.cmd := rfl
@[simp] theorem inPhase_rsp (p : Phase) (hold : Nat) (es : List SerialEvent) (k : Commit) : (s.inPhase p hold es k).rsp = s.rsp := rfl
@[simp] theorem inPhase_emitted (p : Phase) (hold : Nat) (es : List SerialEvent) (k : Commit) : (s.inPhase p hold es k).emitted = s.emitted := rfl
@[simp] theorem inPhase_cfg (p : Phase) (hold : Nat) (es : List SerialEvent) (k : Commit) : (s.inPhase p hold es k).cfg = s.cfg := rfl
@[simp] theorem inPhase_inputs (p : Phase) (hold : Nat) (es : List SerialEvent) (k : Commit) : (s.inPhase p hold es k).inputs = s.inputs := rfl
@[simp] theorem inPhase_clock (p : Phase) (hold : Nat) (es : List SerialEvent) (k : Commit) : (s.inPhase p hold es k).clock = s.clock := rfl
@[simp] theorem inPhase_beenReset (p : Phase) (hold : Nat) (es : List SerialEvent) (k : Commit) : (s.inPhase p hold es k).beenReset = s.beenReset := rfl

/-! ### debounceEdge -/

@[simp] theorem debounceEdge_sel (p : PortIn) : (s.debounceEdge p).sel = s.sel := rfl
@[simp] theorem debounceEdge_inited (p : PortIn) : (s.debounceEdge p).inited = s.inited := rfl
@[simp] theorem debounceEdge_acc (p : PortIn) : (s.debounceEdge p).acc = if p.debTick then (debTick s.cfg s.acc s.pub s.rawAsserted).1 else s.acc := rfl
@[simp] theorem debounceEdge_pub (p : PortIn) : (s.debounceEdge p).pub = if p.debTick then (debTick s.cfg s.acc s.pub s.rawAsserted).2 else s.pub := rfl
@[simp] theorem debounceEdge_csN (p : PortIn) : (s.debounceEdge p).csN = s.csN := rfl
@[simp] theorem debounceEdge_sclk (p : PortIn) : (s.debounceEdge p).sclk = s.sclk := rfl
@[simp] theorem debounceEdge_sdata (p : PortIn) : (s.debounceEdge p).sdata = s.sdata := rfl
@[simp] theorem debounceEdge_gapCnt (p : PortIn) : (s.debounceEdge p).gapCnt = s.gapCnt := rfl
@[simp] theorem debounceEdge_sync (p : PortIn) : (s.debounceEdge p).sync = shiftSync p.rawIn s.sync := rfl
@[simp] theorem debounceEdge_eng (p : PortIn) : (s.debounceEdge p).eng = s.eng := rfl
@[simp] theorem debounceEdge_cmd (p : PortIn) : (s.debounceEdge p).cmd = s.cmd := rfl
@[simp] theorem debounceEdge_rsp (p : PortIn) : (s.debounceEdge p).rsp = s.rsp := rfl
@[simp] theorem debounceEdge_emitted (p : PortIn) : (s.debounceEdge p).emitted = s.emitted := rfl
@[simp] theorem debounceEdge_cfg (p : PortIn) : (s.debounceEdge p).cfg = s.cfg := rfl
@[simp] theorem debounceEdge_inputs (p : PortIn) : (s.debounceEdge p).inputs = s.inputs := rfl
@[simp] theorem debounceEdge_clock (p : PortIn) : (s.debounceEdge p).clock = s.clock := rfl
@[simp] theorem debounceEdge_beenReset (p : PortIn) : (s.debounceEdge p).beenReset = s.beenReset := rfl

/-! ### passCycle -/

@[simp] theorem passCycle_sel : (s.passCycle).sel = s.sel := rfl
@[simp] theorem passCycle_inited : (s.passCycle).inited = s.inited := rfl
@[simp] theorem passCycle_acc : (s.passCycle).acc = s.acc := rfl
@[simp] theorem passCycle_pub : (s.passCycle).pub = s.pub := rfl
@[simp] theorem passCycle_csN : (s.passCycle).csN = s.csN := rfl
@[simp] theorem passCycle_sclk : (s.passCycle).sclk = s.sclk := rfl
@[simp] theorem passCycle_sdata : (s.passCycle).sdata = s.sdata := rfl
@[simp] theorem passCycle_gapCnt : (s.passCycle).gapCnt = s.gapCnt := rfl
@[simp] theorem passCycle_sync : (s.passCycle).sync = s.sync := rfl
@[simp] theorem passCycle_eng : (s.passCycle).eng = s.eng := rfl
@[simp] theorem passCycle_cmd : (s.passCycle).cmd = s.cmd := rfl
@[simp] theorem passCycle_rsp : (s.passCycle).rsp = s.rsp := rfl
@[simp] theorem passCycle_emitted : (s.passCycle).emitted = s.emitted := rfl
@[simp] theorem passCycle_cfg : (s.passCycle).cfg = s.cfg := rfl
@[simp] theorem passCycle_inputs : (s.passCycle).inputs = s.inputs.tail := rfl
@[simp] theorem passCycle_clock : (s.passCycle).clock = s.clock + 1 := rfl
@[simp] theorem passCycle_beenReset : (s.passCycle).beenReset = s.beenReset := rfl

/-! ### resetEdge -/

@[simp] theorem resetEdge_sel : (s.resetEdge).sel = .set0 := rfl
@[simp] theorem resetEdge_inited : (s.resetEdge).inited = false := rfl
@[simp] theorem resetEdge_acc : (s.resetEdge).acc = 0#8 := rfl
@[simp] theorem resetEdge_pub : (s.resetEdge).pub = false := rfl
@[simp] theorem resetEdge_csN : (s.resetEdge).csN = true := rfl
@[simp] theorem resetEdge_sclk : (s.resetEdge).sclk = true := rfl
@[simp] theorem resetEdge_sdata : (s.resetEdge).sdata = false := rfl
@[simp] theorem resetEdge_gapCnt : (s.resetEdge).gapCnt = 0 := rfl
@[simp] theorem resetEdge_sync : (s.resetEdge).sync = List.replicate s.cfg.syncStages (releasedLevel s.cfg) := rfl
@[simp] theorem resetEdge_eng : (s.resetEdge).eng = .idle := rfl
@[simp] theorem resetEdge_cmd : (s.resetEdge).cmd = 0#64 := rfl
@[simp] theorem resetEdge_rsp : (s.resetEdge).rsp = 0#64 := rfl
@[simp] theorem resetEdge_emitted : (s.resetEdge).emitted = [] := rfl
@[simp] theorem resetEdge_cfg : (s.resetEdge).cfg = s.cfg := rfl
@[simp] theorem resetEdge_inputs : (s.resetEdge).inputs = s.inputs := rfl
@[simp] theorem resetEdge_clock : (s.resetEdge).clock = s.clock := rfl
@[simp] theorem resetEdge_beenReset : (s.resetEdge).beenReset = true := rfl

/-! ### unspecifiedEdge -/

@[simp] theorem unspecifiedEdge_sync : s.unspecifiedEdge.sync = stages s.cfg.syncStages (Config.freeElements (s.clock + 1)).sync := rfl
@[simp] theorem unspecifiedEdge_cfg : s.unspecifiedEdge.cfg = s.cfg := rfl
@[simp] theorem unspecifiedEdge_inputs : s.unspecifiedEdge.inputs = s.inputs := rfl
@[simp] theorem unspecifiedEdge_clock : s.unspecifiedEdge.clock = s.clock := rfl
@[simp] theorem unspecifiedEdge_beenReset : s.unspecifiedEdge.beenReset = false := rfl

/-- SYNC has its width before the first reset too (R32). -/
@[simp] theorem stages_length (n : Nat) (l : List Bool) : (stages n l).length = n := by simp [stages]

end Sys2Proof.Machine.State
end

