-- ==== Sys2Proof/Laws/Ops.lean ====
section
/-! SUPPORT. What each shared operation can do, said once: emitting events, the whole of one command (`exec_outcome`), and a word of any
kind (`performWord_outcome`). -/

namespace Sys2Proof.Machine

/-! ## Emitting events -/

namespace State

variable (s : State) (es : List SerialEvent)

/-- Performing serial events writes the three lines and GAP_CNT and nothing else (R231). -/
theorem foldl_perform_eq :
    es.foldl State.perform s =
      { s with
        csN := (es.foldl State.perform s).csN
        sclk := (es.foldl State.perform s).sclk
        sdata := (es.foldl State.perform s).sdata
        gapCnt := (es.foldl State.perform s).gapCnt } := by
  induction es generalizing s with
  | nil => rfl
  | cons e es ih =>
    simp only [List.foldl_cons]
    conv_lhs => rw [ih]
    cases e <;> rfl

@[simp] theorem emit_sel : (s.emit es).sel = s.sel := by
  unfold emit; rw [foldl_perform_eq]
@[simp] theorem emit_inited : (s.emit es).inited = s.inited := by
  unfold emit; rw [foldl_perform_eq]
@[simp] theorem emit_acc : (s.emit es).acc = s.acc := by
  unfold emit; rw [foldl_perform_eq]
@[simp] theorem emit_pub : (s.emit es).pub = s.pub := by
  unfold emit; rw [foldl_perform_eq]
@[simp] theorem emit_sync : (s.emit es).sync = s.sync := by
  unfold emit; rw [foldl_perform_eq]
@[simp] theorem emit_eng : (s.emit es).eng = s.eng := by
  unfold emit; rw [foldl_perform_eq]
@[simp] theorem emit_cmd : (s.emit es).cmd = s.cmd := by
  unfold emit; rw [foldl_perform_eq]
@[simp] theorem emit_rsp : (s.emit es).rsp = s.rsp := by
  unfold emit; rw [foldl_perform_eq]
@[simp] theorem emit_cfg : (s.emit es).cfg = s.cfg := by
  unfold emit; rw [foldl_perform_eq]
@[simp] theorem emit_inputs : (s.emit es).inputs = s.inputs := by
  unfold emit; rw [foldl_perform_eq]
@[simp] theorem emit_clock : (s.emit es).clock = s.clock := by
  unfold emit; rw [foldl_perform_eq]
@[simp] theorem emit_beenReset : (s.emit es).beenReset = s.beenReset := by
  unfold emit; rw [foldl_perform_eq]
@[simp] theorem emit_emitted : (s.emit es).emitted = s.emitted ++ es := rfl

theorem emit_csN : (s.emit es).csN = (es.foldl State.perform s).csN := rfl
theorem emit_sclk : (s.emit es).sclk = (es.foldl State.perform s).sclk := rfl
theorem emit_sdata : (s.emit es).sdata = (es.foldl State.perform s).sdata := rfl
theorem emit_gapCnt : (s.emit es).gapCnt = (es.foldl State.perform s).gapCnt := rfl

end State

/-! ## Bits and frames -/

@[simp] theorem bits_length (v : Word16) (w : Nat) : (bits v w).length = w := by
  induction w with
  | zero => rfl
  | succ n ih => simp [bits, ih]

/-- Bits leave chip-select alone. -/
theorem wellFramed_bits_append (cs : Bool) (v : Word16) (w : Nat) (es : List SerialEvent) :
    wellFramed cs (bits v w ++ es) = wellFramed cs es := by
  induction w with
  | zero => rfl
  | succ n ih => simp [bits, wellFramed, ih]

theorem wellFramed_bits (cs : Bool) (v : Word16) (w : Nat) : wellFramed cs (bits v w) = true := by
  have h := wellFramed_bits_append cs v w []
  rwa [List.append_nil] at h

theorem wellFramed_words_append (cs : Bool) (ws : List Word16) (es : List SerialEvent) :
    wellFramed cs (ws.flatMap bits16 ++ es) = wellFramed cs es := by
  induction ws with
  | nil => rfl
  | cons w ws ih => simp [List.flatMap_cons, List.append_assoc, bits16, wellFramed_bits_append, ih]

/-- A frame fits whatever level chip-select is at (R194). -/
theorem wellFramed_frameEvents (cs : Bool) (ws : List Word16) : wellFramed cs (frameEvents cs ws) = true := by
  cases cs <;> simp [frameEvents, wellFramed, wellFramed_words_append]

theorem wellFramed_csEvents (l cs : Bool) : wellFramed cs (csEvents l cs) = true := by
  cases l <;> cases cs <;> rfl

/-! ## The response word -/

@[simp] theorem rspOp_rspWord (op : Nibble) (st : Status) (r : Word40) : rspOp (rspWord op st r) = op :=
  quad_op _ _ _ _

@[simp] theorem rspStatus_rspWord (op : Nibble) (st : Status) (r : Word40) :
    rspStatus (rspWord op st r) = st.code := quad_aux _ _ _ _

theorem rspResult_rspWord (op : Nibble) (st : Status) (r : Word40) :
    rspResult (rspWord op st r) = if st = .ok then r else 0#40 := quad_data _ _ _ _

@[simp] theorem rspResult_rspWord_ok (op : Nibble) (r : Word40) : rspResult (rspWord op .ok r) = r := by
  simp [rspResult_rspWord]

theorem rspZero_rspWord (op : Nibble) (st : Status) (r : Word40) :
    (rspWord op st r).extractLsb' 40 16 = 0#16 := quad_mid _ _ _ _

theorem code_eq_zero_iff (st : Status) : st.code = 0#4 ↔ st = .ok := by cases st <;> decide

theorem code_le_five (st : Status) : st.code.toNat ≤ 5 := by cases st <;> decide

/-- Every response the model makes has the form of R91. -/
theorem rspForm_rspWord (op : Nibble) (st : Status) (r : Word40) : RspForm (rspWord op st r) where
  zero := rspZero_rspWord op st r
  status := by rw [rspStatus_rspWord]; exact code_le_five st
  result := by
    rw [rspStatus_rspWord, Ne, code_eq_zero_iff, rspResult_rspWord]
    exact fun h => if_neg h

/-! ## The whole of one command -/

/-- The one shape of every outcome of a command (R15, R302): a next state with CMD the command's word, the events `es`, a response with
its OP, and SEL and INITED `sel` and `inited`. -/
def outcomeState (c : Word64) (st : Status) (r : Word40) (es : List SerialEvent) (sel : RegSet) (inited : Bool)
    (s : State) : State :=
  { (s.accept c).emit es with
    sel := sel
    inited := inited
    rsp := rspWord (cmdOp c) st r
    eng := .resp }

/-- What a command may do: an error writes and emits nothing (R302); the events fit the chip-select level; only an OK DDS command
moves SEL, only an OK DDS.INIT INITED (R199, R35). -/
structure OutcomeOk (s : State) (c : Word64) (st : Status) (es : List SerialEvent) (sel : RegSet) (inited : Bool) :
    Prop where
  error : st ≠ .ok → es = [] ∧ sel = s.sel ∧ inited = s.inited
  framed : wellFramed s.csN es = true
  sel : sel ≠ s.sel → st = .ok ∧ (cmdOp c = 5#4 ∨ cmdOp c = 6#4 ∨ cmdOp c = 7#4)
  inited : inited ≠ s.inited → st = .ok ∧ cmdOp c = 7#4 ∧ inited = true
  serial : es ≠ [] → serialOp (cmdOp c) = true

theorem outcome_plain (s : State) (c : Word64) (st : Status) (r : Word40) :
    (s.accept c).respond st r = outcomeState c st r [] s.sel s.inited s ∧ OutcomeOk s c st [] s.sel s.inited :=
  ⟨rfl, ⟨fun _ => ⟨rfl, rfl, rfl⟩, rfl, fun h => absurd rfl h, fun h => absurd rfl h, fun h => absurd rfl h⟩⟩

theorem outcome_raise (s : State) (c : Word64) (st : Status) :
    (s.accept c).raise st = outcomeState c st 0#40 [] s.sel s.inited s ∧ OutcomeOk s c st [] s.sel s.inited :=
  outcome_plain s c st 0#40

theorem outcome_ddsUpdate (s : State) (c : Word64) (tw : Nat) (h : cmdOp c = 5#4 ∨ cmdOp c = 6#4) :
    ∃ r es, (s.accept c).ddsUpdate tw = outcomeState c .ok r es s.sel.other s.inited s ∧
      OutcomeOk s c .ok es s.sel.other s.inited := by
  refine ⟨updateResult s.sel (BitVec.ofNat 28 tw),
    frameEvents s.csN (updateWords s.cfg s.sel (BitVec.ofNat 28 tw)), ?_, ?_⟩
  · simp only [State.ddsUpdate, State.respond, State.emitFrame, outcomeState, State.accept_cfg, State.accept_sel,
      State.accept_csN, State.emit_cmd, State.accept_cmd, State.emit_inited, State.accept_inited]
  · refine ⟨fun hn => absurd rfl hn, wellFramed_frameEvents _ _, fun _ => ⟨rfl, ?_⟩, fun hn => absurd rfl hn,
      fun _ => ?_⟩
    · rcases h with h | h
      · exact .inl h
      · exact .inr (.inl h)
    · rcases h with h | h <;> rw [h] <;> decide

/-- Every command takes a next state of the one shape. -/
theorem exec_outcome (i : Instr) (s : State) :
    ∃ st r es sel inited, exec i s = .next (outcomeState (encode i) st r es sel inited s) ∧
      OutcomeOk s (encode i) st es sel inited := by
  cases i with
  | bcdEnc8 v => exact ⟨_, _, _, _, _, congrArg _ (outcome_plain s _ _ _).1, (outcome_plain s _ _ 0#40).2⟩
  | bcdEnc10 v => exact ⟨_, _, _, _, _, congrArg _ (outcome_plain s _ _ _).1, (outcome_plain s _ _ 0#40).2⟩
  | bcdDec8 d =>
    simp only [exec, execBcdDec8]
    split
    · exact ⟨_, _, _, _, _, congrArg _ (outcome_plain s _ _ _).1, (outcome_plain s _ _ 0#40).2⟩
    · exact ⟨_, _, _, _, _, congrArg _ (outcome_raise s _ _).1, (outcome_raise s _ _).2⟩
  | bcdDec10 d =>
    simp only [exec, execBcdDec10]
    split
    · split
      · exact ⟨_, _, _, _, _, congrArg _ (outcome_plain s _ _ _).1, (outcome_plain s _ _ 0#40).2⟩
      · exact ⟨_, _, _, _, _, congrArg _ (outcome_raise s _ _).1, (outcome_raise s _ _).2⟩
    · exact ⟨_, _, _, _, _, congrArg _ (outcome_raise s _ _).1, (outcome_raise s _ _).2⟩
  | tuneInt f =>
    simp only [exec, execTuneInt]
    split
    · exact ⟨_, _, _, _, _, congrArg _ (outcome_raise s _ _).1, (outcome_raise s _ _).2⟩
    · exact ⟨_, _, _, _, _, congrArg _ (outcome_plain s _ _ _).1, (outcome_plain s _ _ 0#40).2⟩
  | tuneFrac q => exact ⟨_, _, _, _, _, congrArg _ (outcome_plain s _ _ _).1, (outcome_plain s _ _ 0#40).2⟩
  | ddsSeti f =>
    simp only [exec, execDdsSeti]
    split
    · exact ⟨_, _, _, _, _, congrArg _ (outcome_raise s _ _).1, (outcome_raise s _ _).2⟩
    · split
      · obtain ⟨r, es, h1, h2⟩ := outcome_ddsUpdate s (encode (.ddsSeti f)) ‹Nat› (.inl (cmdOp_encode _))
        exact ⟨_, _, _, _, _, congrArg _ h1, h2⟩
      · exact ⟨_, _, _, _, _, congrArg _ (outcome_raise s _ _).1, (outcome_raise s _ _).2⟩
  | ddsSetf q =>
    simp only [exec, execDdsSetf]
    split
    · obtain ⟨r, es, h1, h2⟩ := outcome_ddsUpdate s (encode (.ddsSetf q)) _ (.inr (cmdOp_encode _))
      exact ⟨_, _, _, _, _, congrArg _ h1, h2⟩
    · exact ⟨_, _, _, _, _, congrArg _ (outcome_raise s _ _).1, (outcome_raise s _ _).2⟩
  | ddsInit =>
    refine ⟨.ok, 0#40, frameEvents s.csN (initWords s.cfg), .set0, true, ?_, ?_⟩
    · simp only [exec, execDdsInit, State.respond, State.emitFrame, outcomeState, State.accept_cfg, State.accept_csN,
        State.emit_cmd, State.accept_cmd]
    · refine ⟨fun hn => absurd rfl hn, wellFramed_frameEvents _ _, fun _ => ⟨rfl, .inr (.inr (cmdOp_encode _))⟩,
        fun _ => ⟨rfl, cmdOp_encode _, rfl⟩, fun _ => ?_⟩
      rw [cmdOp_encode]; decide
  | sblSend w v =>
    refine ⟨.ok, 0#40, bits v w, s.sel, s.inited, ?_, ?_⟩
    · simp only [exec, execSblSend, State.respond, outcomeState, State.emit_cmd, State.accept_cmd, State.emit_sel,
        State.accept_sel, State.emit_inited, State.accept_inited]
    · refine ⟨fun hn => absurd rfl hn, wellFramed_bits _ _ _, fun hn => absurd rfl hn, fun hn => absurd rfl hn,
        fun _ => ?_⟩
      rw [cmdOp_encode]; rfl
  | sblCs l =>
    refine ⟨.ok, 0#40, csEvents l s.csN, s.sel, s.inited, ?_, ?_⟩
    · simp only [exec, execSblCs, State.respond, outcomeState, State.emit_cmd, State.accept_cmd, State.emit_sel,
        State.accept_sel, State.emit_inited, State.accept_inited]
    · refine ⟨fun hn => absurd rfl hn, wellFramed_csEvents _ _, fun hn => absurd rfl hn, fun hn => absurd rfl hn,
        fun _ => ?_⟩
      rw [cmdOp_encode]; rfl
  | debRead => exact ⟨_, _, _, _, _, congrArg _ (outcome_plain s _ _ _).1, (outcome_plain s _ _ 0#40).2⟩

/-- A word that decodes to no operation takes a next state of the one shape, with the word in CMD (R94, R98). -/
theorem reject_outcome (c : Word64) (x : Reject) (s : State) :
    s.reject c x = outcomeState c (Status.ofReject x) 0#40 [] s.sel s.inited s ∧
      OutcomeOk s c (Status.ofReject x) [] s.sel s.inited :=
  outcome_raise s c (Status.ofReject x)

end Sys2Proof.Machine
end

