-- ==== Sys2Proof/Laws/Families.lean ====
section
/-! SUPPORT. One lemma for each calculation of the families: counting subtractions, packed digits, the tuning word, a filter update, the
synchroniser. -/

namespace Sys2Proof.Machine

/-- With enough rounds the count is the quotient and what is left the remainder (R132). -/
theorem subtractCount_eq {div : Nat} (hd : 0 < div) (fuel c r : Nat) (h : r < fuel * div) :
    subtractCount div fuel c r = (c + r / div, r % div) := by
  induction fuel generalizing c r with
  | zero => omega
  | succ n ih =>
    unfold subtractCount
    split
    · rename_i hle
      have hlt : r - div < n * div := by rw [Nat.succ_mul] at h; omega
      rw [ih _ _ hlt, Nat.div_eq_sub_div hd hle, Nat.mod_eq_sub_mod hle]
      congr 1
      omega
    · rename_i hlt
      rw [Nat.div_eq_of_lt (by omega), Nat.mod_eq_of_lt (by omega), Nat.add_zero]

@[simp] theorem unpackDigits_length (x n : Nat) : (unpackDigits x n).length = n := by
  induction n with
  | zero => rfl
  | succ n ih => simp [unpackDigits, ih]

@[simp] theorem subtractDigits_length (k r : Nat) : (subtractDigits k r).length = k + 1 := by
  induction k generalizing r with
  | zero => rfl
  | succ n ih => simp [subtractDigits, ih]

/-- Digits below 16 pack into as many nibbles (R96). -/
theorem packDigits_lt (ds : List Nat) (h : ∀ d ∈ ds, d < 16) : packDigits ds < 16 ^ ds.length := by
  induction ds with
  | nil => simp [packDigits]
  | cons d ds ih =>
    have h1 := ih fun x hx => h x (List.mem_cons_of_mem _ hx)
    have h2 := h d List.mem_cons_self
    simp only [packDigits, List.length_cons, Nat.pow_succ]
    nlinarith

/-- Packing and unpacking give the digits back (R96). -/
theorem unpackDigits_packDigits (ds : List Nat) (h : ∀ d ∈ ds, d < 16) :
    unpackDigits (packDigits ds) ds.length = ds := by
  have key : ∀ (ds : List Nat) (hi : Nat), (∀ d ∈ ds, d < 16) →
      unpackDigits (hi * 16 ^ ds.length + packDigits ds) ds.length = ds := by
    intro ds
    induction ds with
    | nil => intros; rfl
    | cons d ds ih =>
      intro hi h
      have hlt := packDigits_lt ds fun x hx => h x (List.mem_cons_of_mem _ hx)
      have hd := h d List.mem_cons_self
      have hx : hi * 16 ^ (ds.length + 1) + (d * 16 ^ ds.length + packDigits ds) =
          (hi * 16 + d) * 16 ^ ds.length + packDigits ds := by ring
      simp only [packDigits, List.length_cons, unpackDigits]
      rw [hx, ih _ fun x hx => h x (List.mem_cons_of_mem _ hx), Nat.add_comm, Nat.add_mul_div_right _ _ (by positivity),
        Nat.div_eq_of_lt hlt]
      congr 1
      omega
  simpa using key ds 0 h

/-- R162 without shifts: the quotient by 2^36, halved, plus its last bit. -/
theorem fracToTuning_div (ratio q : Word32) :
    fracToTuning ratio q = q.toNat * ratio.toNat / 2 ^ 36 / 2 + q.toNat * ratio.toNat / 2 ^ 36 % 2 := by
  simp [fracToTuning, Nat.shiftRight_eq_div_pow, Nat.and_one_is_mod]

/-- f[31:25] ≠ 0 says that f is above 33,554,431 (R163). -/
theorem aboveRange_iff (f : Word32) : aboveRange f = true ↔ 33554431 < f.toNat := by
  have h := f.isLt
  simp only [aboveRange, bne_iff_ne, ne_eq, ← BitVec.toNat_inj, BitVec.extractLsb'_toNat, Nat.shiftRight_eq_div_pow,
    BitVec.toNat_ofNat]
  omega

/-- A tick's accumulator is the exact filter value (R273). -/
theorem debTick_acc (c : Config) (acc : BitVec 8) (pub asserted : Bool) :
    (debTick c acc pub asserted).1.toNat = debFilter acc.toNat (sampleOf asserted) := by
  have h := acc.isLt
  simp only [debTick, BitVec.toNat_ofNat]
  apply Nat.mod_eq_of_lt
  simp only [debFilter, sampleOf, Nat.shiftRight_eq_div_pow]
  cases asserted <;> simp <;> omega

@[simp] theorem shiftSync_length (raw : Bool) (sync : List Bool) : (shiftSync raw sync).length = sync.length := by
  simp [shiftSync]

end Sys2Proof.Machine
end

