-- ==== Sys2Proof/Laws/PerInstr.lean ====
section
/-! SUPPORT. Per-instruction families. EncodedFields: the encoding of every instruction has the OP of 30_encoding.md R93 and RSVD = 0
(R100: "RSVD = 0 in every form"). -/

namespace Sys2Proof.Laws.EncodedFields

/-- OP and RSVD of an instruction's command word. -/
def Statement (i : Instr) : Prop := cmdOp (encode i) = opOf i ∧ cmdRsvd (encode i) = 0#16

theorem bcdEnc8 (v : Word32) : Statement (.bcdEnc8 v) := ⟨cmdOp_cmdWord _ _ _, cmdRsvd_cmdWord _ _ _⟩
theorem bcdEnc10 (v : Word32) : Statement (.bcdEnc10 v) := ⟨cmdOp_cmdWord _ _ _, cmdRsvd_cmdWord _ _ _⟩
theorem bcdDec8 (d : Word32) : Statement (.bcdDec8 d) := ⟨cmdOp_cmdWord _ _ _, cmdRsvd_cmdWord _ _ _⟩
theorem bcdDec10 (d : Word40) : Statement (.bcdDec10 d) := ⟨cmdOp_cmdWord _ _ _, cmdRsvd_cmdWord _ _ _⟩
theorem tuneInt (f : Word32) : Statement (.tuneInt f) := ⟨cmdOp_cmdWord _ _ _, cmdRsvd_cmdWord _ _ _⟩
theorem tuneFrac (q : Word32) : Statement (.tuneFrac q) := ⟨cmdOp_cmdWord _ _ _, cmdRsvd_cmdWord _ _ _⟩
theorem ddsSeti (f : Word32) : Statement (.ddsSeti f) := ⟨cmdOp_cmdWord _ _ _, cmdRsvd_cmdWord _ _ _⟩
theorem ddsSetf (q : Word32) : Statement (.ddsSetf q) := ⟨cmdOp_cmdWord _ _ _, cmdRsvd_cmdWord _ _ _⟩
theorem ddsInit : Statement .ddsInit := ⟨cmdOp_cmdWord _ _ _, cmdRsvd_cmdWord _ _ _⟩
theorem sblSend (w : Nat) (v : Word16) : Statement (.sblSend w v) := ⟨cmdOp_cmdWord _ _ _, cmdRsvd_cmdWord _ _ _⟩
theorem sblCs (l : Bool) : Statement (.sblCs l) := ⟨cmdOp_cmdWord _ _ _, cmdRsvd_cmdWord _ _ _⟩
theorem debRead : Statement .debRead := ⟨cmdOp_cmdWord _ _ _, cmdRsvd_cmdWord _ _ _⟩

end Sys2Proof.Laws.EncodedFields
end

