-- ==== Sys2Proof/Laws/Step.lean ====
section
/-! SUPPORT. What one clock cycle can do, said once (`step_cases`, `commandEdge_cases`), and what it leaves alone whatever it does. -/

namespace Sys2Proof.Machine

/-- Every accepted word, whatever its bits, has an outcome of the one shape. -/
theorem performWord_outcome (c : Word64) (s : State) :
    ∃ c' st r es sel inited, performWord c s = .next (outcomeState c' st r es sel inited s) ∧
      OutcomeOk s c' st es sel inited ∧ cmdOp c' = cmdOp c := by
  unfold performWord
  split
  · rename_i i hd
    obtain ⟨st, r, es, sel, ini, h1, h2⟩ := exec_outcome i s
    exact ⟨_, st, r, es, sel, ini, h1, h2, (cmdOp_encode i).trans (opOf_of_decode hd)⟩
  · rename_i x hd
    exact ⟨c, _, _, _, _, _, congrArg _ (reject_outcome c x s).1, (reject_outcome c x s).2, rfl⟩

/-- What the command engine does at an edge with `rst` = 0 (R40, R103). -/
theorem commandEdge_cases (p : PortIn) (s : State) :
    (s.eng = .idle ∧ p.cmdValid = false ∧ s.commandEdge p = .next s.countGap) ∨
    (s.eng = .idle ∧ p.cmdValid = true ∧ ∃ t, performWord p.cmdData s = .next t ∧
      s.commandEdge p = .next (State.begin p.cmdData t s)) ∨
    (∃ j, s.eng = .exec j ∧ s.commandEdge p = .next (s.countGap.advance j)) ∨
    (s.eng = .resp ∧ p.rspReady = true ∧ s.commandEdge p = .next { s.countGap with eng := .idle }) ∨
    (s.eng = .resp ∧ p.rspReady = false ∧ s.commandEdge p = .next s.countGap) := by
  unfold State.commandEdge
  cases he : s.eng with
  | idle =>
    cases hv : p.cmdValid with
    | false => simp
    | true =>
      obtain ⟨c', st, r, es, sel, ini, h, -⟩ := performWord_outcome p.cmdData s
      exact .inr (.inl ⟨rfl, rfl, _, h, by simp [h]⟩)
  | exec j => exact .inr (.inr (.inl ⟨j, rfl, rfl⟩))
  | resp => cases hr : p.rspReady <;> simp

/-- What a step does: reset, free elements before the first one, or the two engines (R305, R341, R342). -/
theorem step_cases (s : State) :
    (s.input.rst = true ∧ step s = .next s.resetEdge.passCycle) ∨
    (s.input.rst = false ∧ s.beenReset = false ∧ step s = .next s.unspecifiedEdge.passCycle) ∨
    (s.input.rst = false ∧ s.beenReset = true ∧ ∃ u, s.commandEdge s.input = .next u ∧
      step s = .next (u.debounceEdge s.input).passCycle) := by
  unfold step clockEdge
  cases hr : s.input.rst with
  | true => exact .inl ⟨rfl, by simp⟩
  | false =>
    cases hb : s.beenReset with
    | false => exact .inr (.inl ⟨rfl, rfl, by simp⟩)
    | true =>
    refine .inr (.inr ⟨rfl, rfl, ?_⟩)
    rcases commandEdge_cases s.input s with ⟨-, -, h⟩ | ⟨-, -, t, -, h⟩ | ⟨j, -, h⟩ | ⟨-, -, h⟩ | ⟨-, -, h⟩ <;>
      exact ⟨_, h, by simp [h]⟩

/-! ## What the command engine leaves alone -/

/-- The debounce side and the configuration are the same in two states, and so is whether a reset has been. -/
def KeepsDebounce (s t : State) : Prop :=
  t.cfg = s.cfg ∧ t.acc = s.acc ∧ t.pub = s.pub ∧ t.sync = s.sync ∧ t.beenReset = s.beenReset

theorem lowerCs_keeps (s : State) (es : List SerialEvent) (k : Commit) : KeepsDebounce s (s.lowerCs es k) := by
  unfold State.lowerCs; split <;> exact ⟨rfl, rfl, rfl, rfl, rfl⟩

theorem nextEvent_keeps (s : State) (es : List SerialEvent) (k : Commit) : KeepsDebounce s (s.nextEvent es k) := by
  cases es with
  | nil => exact ⟨rfl, rfl, rfl, rfl, rfl⟩
  | cons e es =>
    cases e with
    | csLow => exact lowerCs_keeps s es k
    | csHigh => exact ⟨rfl, rfl, rfl, rfl, rfl⟩
    | bit b => exact ⟨rfl, rfl, rfl, rfl, rfl⟩

theorem endPhase_keeps (s : State) (p : Phase) (es : List SerialEvent) (k : Commit) :
    KeepsDebounce s (s.endPhase p es k) := by
  cases p with
  | bitHigh b => exact nextEvent_keeps s es k
  | gapWait => exact lowerCs_keeps s es k
  | csSelected => exact nextEvent_keeps s es k
  | csReleased => exact nextEvent_keeps s es k
  | bitSetup b => exact ⟨rfl, rfl, rfl, rfl, rfl⟩
  | bitLow b => exact ⟨rfl, rfl, rfl, rfl, rfl⟩
  | csHold => exact ⟨rfl, rfl, rfl, rfl, rfl⟩

theorem advance_keeps (s : State) (j : Job) : KeepsDebounce s (s.advance j) := by
  obtain ⟨pos, es, k⟩ := j
  rcases pos with (_ | n) | ⟨p, _ | n⟩
  · exact nextEvent_keeps s es k
  · exact ⟨rfl, rfl, rfl, rfl, rfl⟩
  · exact endPhase_keeps s p es k
  · exact ⟨rfl, rfl, rfl, rfl, rfl⟩

theorem begin_keeps (c : Word64) (t s : State) : KeepsDebounce s (State.begin c t s) := by
  unfold State.begin State.startAfter
  split
  · exact nextEvent_keeps { s.countGap with cmd := c, emitted := t.emitted } _ _
  · exact ⟨rfl, rfl, rfl, rfl, rfl⟩

/-- The command engine writes neither ACC, PUB, SYNC nor the configuration (R275, R305, R47). -/
theorem commandEdge_keeps {p : PortIn} {s u : State} (h : s.commandEdge p = .next u) : KeepsDebounce s u := by
  rcases commandEdge_cases p s with ⟨-, -, e⟩ | ⟨-, -, t, -, e⟩ | ⟨j, -, e⟩ | ⟨-, -, e⟩ | ⟨-, -, e⟩ <;>
    rw [e] at h <;> cases h
  · exact ⟨rfl, rfl, rfl, rfl, rfl⟩
  · exact begin_keeps p.cmdData t s
  · exact advance_keeps s.countGap j
  · exact ⟨rfl, rfl, rfl, rfl, rfl⟩
  · exact ⟨rfl, rfl, rfl, rfl, rfl⟩

/-- After a step the block has been reset exactly if it had been or this cycle resets it (R342). -/
theorem step_beenReset {s t : State} (h : step s = .next t) : t.beenReset = (s.beenReset || s.input.rst) := by
  rcases step_cases s with ⟨hr, e⟩ | ⟨hr, hb, e⟩ | ⟨hr, hb, u, hu, e⟩ <;> rw [e] at h <;> cases h
  · simp [hr]
  · simp [hr, hb]
  · simp [hr, hb, (commandEdge_keeps hu).2.2.2.2]

end Sys2Proof.Machine
end

