-- ==== Sys2Proof/Tests/Slice0.lean ====
section
/-! SUPPORT. Small tests, each with the place of the spec its expected value comes from, the smoke test of WellFormed, and for every
statement with hypotheses a named witness that meets them. -/

namespace Sys2Proof.Tests

open Sys2Proof.Machine Sys2Proof.Claims

/-! ## Helpers -/

/-- The response to a command word at the transaction level. -/
def answerTo (c : Word64) (s : State) : Option Word64 :=
  match performWord c s with
  | .next t => some t.rsp
  | .fault _ => none
  | .refused _ => none

/-- The words a command sends in frames. -/
def sent (c : Word64) (s : State) : List Word16 :=
  match performWord c s with
  | .next t => wordsSent t.emitted
  | .fault _ => []
  | .refused _ => []

/-- A field of the state after `k` cycles. -/
def after {α : Type} (k : Nat) (s : State) (f : State → α) : Option α :=
  match runCycles k s with
  | .next t => some (f t)
  | .fault _ => none
  | .refused _ => none

/-- Quiet cycles. -/
def quiet (k : Nat) : List PortIn := List.replicate k PortIn.quiet

/-- Right after reset, word `c` offered in the first cycle, then `k` quiet cycles. -/
def offered (c : Word64) (k : Nat) : State :=
  { State.reset with inputs := offering c PortIn.quiet :: quiet k }

/-- Right after reset, then initialised, with SEL as given. -/
def ready (sel : RegSet) : State := { State.reset with inited := true, sel := sel }

/-! ## WellFormed refuses each ill-formed term -/

theorem test_wf_refuses_width_0 : (Instr.sblSend 0 0#16).wf = false := by decide
theorem test_wf_refuses_width_17 : (Instr.sblSend 17 0#16).wf = false := by decide
theorem test_wf_admits_widths_1_and_16 : (Instr.sblSend 1 0#16).wf && (Instr.sblSend 16 0#16).wf := by decide

/-! ## Decoding: words written out from R90 and R100 (fields OP AUX RSVD DATA), the examples of R102, the errors of 95 section 2.1 -/

theorem test_decode_bcdEnc8 : decode 0x10000000FFFFFFFE#64 = .instr (.bcdEnc8 0xFFFFFFFE#32) := by decide
theorem test_decode_bcdEnc10 : decode 0x11000000FFFFFFFF#64 = .instr (.bcdEnc10 0xFFFFFFFF#32) := by decide
theorem test_decode_bcdDec8 : decode 0x2000000012345678#64 = .instr (.bcdDec8 0x12345678#32) := by decide
theorem test_decode_bcdDec10 : decode 0x2100004294967295#64 = .instr (.bcdDec10 0x4294967295#40) := by decide
theorem test_decode_tuneInt : decode 0x3000000001FFFFFF#64 = .instr (.tuneInt 33554431#32) := by decide
theorem test_decode_tuneFrac : decode 0x40000000AE9D85D9#64 = .instr (.tuneFrac 0xAE9D85D9#32) := by decide
theorem test_decode_ddsSeti : decode 0x5000000001C9C380#64 = .instr (.ddsSeti 30000000#32) := by decide
theorem test_decode_ddsSetf : decode 0x6000000080000001#64 = .instr (.ddsSetf 0x80000001#32) := by decide
theorem test_decode_ddsInit : decode 0x7000000000000000#64 = .instr .ddsInit := by decide
theorem test_decode_sblSend : decode 0x8F00000000002100#64 = .instr (.sblSend 16 0x2100#16) := by decide
theorem test_decode_sblSend_width_1 : decode 0x8000000000008000#64 = .instr (.sblSend 1 0x8000#16) := by decide
theorem test_decode_sblCs_1 : decode 0x9100000000000000#64 = .instr (.sblCs true) := by decide
theorem test_decode_sblCs_0 : decode 0x9000000000000000#64 = .instr (.sblCs false) := by decide
theorem test_decode_debRead : decode 0xA000000000000000#64 = .instr .debRead := by decide
theorem test_decode_illegal_before_rsvd : decode 0xF0FFFFFFFFFFFFFF#64 = .reject .illegal := by decide
theorem test_decode_rsvd_field : decode 0x5000010000000000#64 = .reject .rsvd := by decide
theorem test_decode_rsvd_aux : decode 0x1300000000000000#64 = .reject .rsvd := by decide
theorem test_decode_rsvd_data39 : decode 0x1000008000000000#64 = .reject .rsvd := by decide
theorem test_decode_rsvd_send16 : decode 0x8000000000010000#64 = .reject .rsvd := by decide
theorem test_decode_rsvd_init : decode 0x7000000000000001#64 = .reject .rsvd := by decide
theorem test_table_word : decodeTableWord 64 0x9100000000000000 = some (.sblCs true) := by decide

/-! ## Meanings: 95_test_vectors.md section 2 -/

theorem test_enc8_clips : answerTo 0x1000000005F5E100#64 State.reset = some 0x1000000099999999#64 := by decide
theorem test_enc8 : answerTo 0x1000000000BC614E#64 State.reset = some 0x1000000012345678#64 := by decide
theorem test_enc10_largest : answerTo 0x11000000FFFFFFFF#64 State.reset = some 0x1000004294967295#64 := by decide
theorem test_dec8 : answerTo 0x2000000099999999#64 State.reset = some 0x2000000005F5E0FF#64 := by decide
theorem test_dec8_digit : answerTo 0x200000001234567A#64 State.reset = some 0x2300000000000000#64 := by decide
theorem test_dec10_range : answerTo 0x2100004294967296#64 State.reset = some 0x2400000000000000#64 := by decide
theorem test_dec10_digit_before_range : answerTo 0x210000A000000000#64 State.reset = some 0x2300000000000000#64 := by decide
theorem test_tuneInt : answerTo 0x3000000001C9C380#64 State.reset = some 0x3000000006666666#64 := by decide
theorem test_tuneInt_range : answerTo 0x3000000002000000#64 State.reset = some 0x3400000000000000#64 := by decide
theorem test_tuneFrac_rounds_up : answerTo 0x40000000AE9D85D9#64 State.reset = some 0x4000000004E1F1F7#64 := by decide
theorem test_tuneFrac_not_rounded : answerTo 0x40000000FFFFFFFF#64 State.reset = some 0x40000000072884F6#64 := by decide
/-- P1, command 4: SEL = 1. -/
theorem test_ddsSeti : answerTo 0x50000000000F4240#64 (ready .set1) = some 0x5000000100369D03#64 := by decide
theorem test_ddsSeti_words : sent 0x50000000000F4240#64 (ready .set1) = [0x9D03#16, 0x80DA#16, 0x2C00#16] := by decide
theorem test_ddsSeti_range_before_noinit :
    answerTo 0x50000000FFFFFFFF#64 State.reset = some 0x5400000000000000#64 := by decide
theorem test_ddsSetf_words : sent 0x60000000AE9D85D9#64 (ready .set0) = [0x71F7#16, 0x5387#16, 0x2000#16] := by decide
theorem test_ddsSetf_noinit : answerTo 0x6000000000000080#64 State.reset = some 0x6500000000000000#64 := by decide
set_option maxRecDepth 20000 in
theorem test_ddsInit_words : sent 0x7000000000000000#64 State.reset =
    [0x2100#16, 0x4000#16, 0x4000#16, 0x8000#16, 0x8000#16, 0xC000#16, 0xE000#16, 0x2C00#16] := by decide
/-- Section 2.5: SBL.SEND 8, 0x1A5 sends 1,0,1,0,0,1,0,1. -/
theorem test_sblSend_bits : bits 0x1A5#16 8 =
    [.bit true, .bit false, .bit true, .bit false, .bit false, .bit true, .bit false, .bit true] := by decide
/-- D4's first tick (255 to 224) and D1's eighth (152 to 164, where PUB becomes 1). -/
theorem test_tick_release : debTick Config.default 255#8 true false = (224#8, true) := by decide
theorem test_tick_assert : debTick Config.default 152#8 false true = (164#8, true) := by decide
theorem test_debRead : answerTo 0xA000000000000000#64 { State.reset with pub := true } =
    some 0xA000000000000001#64 := by decide

/-! ## Cycles: waveforms W1 and W2, P6 (95 sections 2.5 and 3) -/

/-- W1: SBL.SEND 2, 0x2 with CS_N = 0: the levels one and two cycles after acceptance. -/
theorem test_w1_first_cycle :
    after 1 { offered 0x8100000000000002#64 9 with csN := false } State.lines = some ⟨false, true, true⟩ := by decide
theorem test_w1_response : after 7 { offered 0x8100000000000002#64 9 with csN := false } (fun t => (t.lines, t.rsp)) =
    some (⟨false, true, false⟩, 0x8000000000000000#64) := by decide
/-- W2: SBL.CS 1 right after reset with T_GAP = 4: CS_N falls at the start of cycle 4, not before. -/
theorem test_w2_gap : after 3 { offered 0x9100000000000000#64 9 with cfg := { Config.default with tGap := 4 } }
    State.csN = some true := by decide
theorem test_w2_fall : after 4 { offered 0x9100000000000000#64 9 with cfg := { Config.default with tGap := 4 } }
    State.csN = some false := by decide
/-- R341: a reset cycle in the middle of a frame. -/
theorem test_reset_in_a_frame :
    after 4 { State.reset with inputs := offering 0x7000000000000000#64 PortIn.quiet ::
      (quiet 2 ++ [{ PortIn.quiet with rst := true }]) } (fun t => (t.csN, t.eng, t.inited)) =
    some (true, .idle, false) := by decide
/-- The step that accepts runs the command: with LAT_COMPUTE = 1 the response is there in the next cycle (R353). -/
theorem test_step_runs_offered_word :
    after 1 (State.reset.withFetchWord 64 0x1000000000BC614E) State.rsp = some 0x1000000012345678#64 := by decide

/-! ## Assembler: R101, R102 -/

theorem test_assemble_send : assemble "SBL.SEND 16, 0x2100" = some [0x8F00000000002100#64] := by decide
theorem test_assemble_xfer : assemble "SBL.XFER 16, 0x8001" =
    some [0x9100000000000000#64, 0x8F00000000008001#64, 0x9000000000000000#64] := by decide
theorem test_assemble_rejects_width : assemble "SBL.SEND 17, 0" = none := by decide

/-! ## Witnesses -/

theorem default_legal : Config.default.Legal := by constructor <;> decide

/-- An idle state of the default block right after reset, whatever its coming inputs, meets the invariant. -/
theorem witness_inv (ps : List PortIn) : Inv { State.reset with inputs := ps } where
  beenReset := rfl
  legal := default_legal
  sync := rfl
  gapLe := Nat.zero_le _
  gapLow := fun h => nomatch h
  released := fun _ => Nat.zero_le _
  asserted := fun h => nomatch h
  form := (⟨by decide, by decide, by decide⟩ : RspForm 0#64)
  answers := fun h => nomatch h
  clockHigh := fun _ => rfl
  job := fun _ h => nomatch h

/-- A DDS.INIT in the last cycle of its frame: completion writes INITED = 1. -/
def initEnding : State :=
  { State.reset with
    sel := .set1
    cmd := 0x7000000000000000#64
    eng := .exec ⟨.inEvent .csReleased 0, [], ⟨0x7000000000000000#64, .set0, true⟩⟩
    inputs := quiet 1 }

theorem witness_inv_initEnding : Inv initEnding where
  beenReset := rfl
  legal := default_legal
  sync := rfl
  gapLe := by decide
  gapLow := fun h => absurd h (by decide)
  released := fun _ => by decide
  asserted := fun h => absurd h (by decide)
  form := ⟨by decide, by decide, by decide⟩
  answers := fun h => absurd h (by decide)
  clockHigh := fun _ => rfl
  job := fun j h => by
    cases h
    exact ⟨⟨rfl, rfl, rfl⟩, rfl, ⟨by decide, by decide, by decide⟩, by decide, fun _ => by decide, fun _ => by decide⟩

/-- Cycles of no reset are there for any number of placed quiet cycles. -/
theorem noReset_quiet (s : State) (k : Nat) : NoReset k { s with inputs := quiet k } := by
  intro n hn
  simp [State.inputAt, quiet, hn, PortIn.quiet]

theorem witness_DecodeOfEncode : (Instr.sblSend 1 0xFFFF#16).wf = true ∧ (Instr.sblSend 16 0#16).wf = true := by decide

theorem witness_EncodeOfDecoded : ∃ i, decode 0x8F00000000002100#64 = .instr i :=
  ⟨.sblSend 16 0x2100#16, by decide⟩

theorem witness_WordsOutsideTheTable :
    UnassignedOp 0xB000000000000000#64 ∧
    (¬ UnassignedOp 0x9200000000000000#64 ∧ ¬ InTable 0x9200000000000000#64) ∧ InTable 0xAFFFFFFFFFFFFFFF#64 = False ∧
    InTable 0x8FFFFFFFFFFFFFFF#64 = False ∧ InTable 0x8F0000000000FFFF#64 := by
  refine ⟨by decide, by decide, ?_, ?_, by decide⟩ <;> exact eq_false (by decide)

theorem witness_Assembler : (∃ is, expand "SBL.SEND".toList [16, 65535] = some is ∧ is ≠ []) ∧
    (1 ≤ 16 ∧ 16 ≤ 16 ∧ 65535 < 2 ^ 16) := ⟨⟨[.sblSend 16 65535#16], by decide⟩, by decide⟩

theorem witness_StatusReported : ((List.map (fun c => (answerTo c State.reset).map rspStatus)
    [0xA000000000000000#64, 0#64, 0x9200000000000000#64, 0x200000001234567A#64, 0x2100009999999999#64,
     0x6000000000000080#64]) = [some 0#4, some 1#4, some 2#4, some 3#4, some 4#4, some 5#4]) := by decide

theorem witness_ErrorAnswer : ∃ t, performWord 0x6000000000000080#64 State.reset = .next t ∧ rspStatus t.rsp ≠ 0#4 :=
  ⟨_, rfl, by decide⟩

theorem witness_BcdDec8 : (∀ k, k < 8 → nibble (0x99999999#32).toNat k ≤ 9) ∧ 9 < nibble (0x1234567A#32).toNat 0 ∧
    9 < nibble (0xA0000000#32).toNat 7 := by decide

theorem witness_BcdDec10 :
    ((∀ k, k < 10 → nibble (0x4294967295#40).toNat k ≤ 9) ∧ digitSum (0x4294967295#40).toNat 10 ≤ 4294967295) ∧
    ((∀ k, k < 10 → nibble (0x4294967296#40).toNat k ≤ 9) ∧ 4294967295 < digitSum (0x4294967296#40).toNat 10) ∧
    9 < nibble (0x000000000A#40).toNat 0 := by decide

theorem witness_RepeatedSubtraction : 4294967295 < 2 ^ 32 ∧ (8 = 8 ∨ 8 = 10) ∧ (10 = 8 ∨ 10 = 10) := by decide

theorem witness_BcdRoundTrip : (99999999 < 100000000 ∧ 100000000 < 2 ^ 32) ∧
    ([4, 2, 9, 4, 9, 6, 7, 2, 9, 5].length = 10 ∧ (∀ d ∈ [4, 2, 9, 4, 9, 6, 7, 2, 9, 5], d ≤ 9) ∧
      bcdDecode [4, 2, 9, 4, 9, 6, 7, 2, 9, 5] < 2 ^ 32) := by decide

theorem witness_TuneInt : (33554431#32).toNat ≤ 33554431 ∧ 33554431 < (33554432#32).toNat := by decide

theorem witness_TuningLaws : (17#32).toNat ≤ (18#32).toNat ∧
    2 ^ 27 ≤ fracToTuning 0xFFFFFFFF#32 0xFFFFFFFF#32 := by decide

theorem witness_Ties : ((0x40#32).toNat * Config.default.ratio.toNat) / 2 ^ 36 % 2 = 1 := by decide

theorem witness_TuneIntAgrees : (33554431#32).toNat ≤ 33554431 ∧ State.reset.cfg.ratio = (ready .set1).cfg.ratio := by
  decide

theorem witness_DdsSeti : (ready .set0).inited = true ∧ (30000000#32).toNat ≤ 33554431 := by decide

theorem witness_DdsSetRefused : 33554431 < (33554432#32).toNat ∧ State.reset.inited = false := by decide

/-- The largest integer frequency and a fractional one are changes with the default RATIO. -/
theorem default_changes : isChange Config.default.ratio 120095986 (.ddsSeti 33554431#32) ∧
    isChange Config.default.ratio 81916407 (.ddsSetf 0xAE9D85D9#32) := by
  refine ⟨⟨by decide, by decide⟩, ?_⟩
  show _ = _
  decide

theorem default_words : DefaultWords Config.default := by
  unfold DefaultWords
  decide

theorem witness_Protocol : isChange State.reset.cfg.ratio 120095986 (.ddsSeti 33554431#32) ∧
    (ready .set1).protocol = some .setAActive ∧ (ready .set0).protocol = some .setBActive ∧
    State.reset.protocol = none := ⟨default_changes.1, by decide, by decide, by decide⟩

theorem witness_Alternate : (ready .set0).inited = true ∧ DefaultWords (ready .set0).cfg ∧
    isChange (ready .set0).cfg.ratio 120095986 (.ddsSeti 33554431#32) ∧
    isChange (ready .set0).cfg.ratio 81916407 (.ddsSetf 0xAE9D85D9#32) :=
  ⟨rfl, default_words, default_changes.1, default_changes.2⟩

theorem witness_GlitchFree : DefaultWords (ready .set0).cfg ∧
    isChange (ready .set0).cfg.ratio 81916407 (.ddsSetf 0xAE9D85D9#32) ∧ (ready .set0).inited = true ∧
    ∃ chip : Chip, chip.source = (ready .set0).activeSet ∧ chip.pending = none :=
  ⟨default_words, default_changes.2, rfl, { Chip.unknown with source := some .set1 }, by decide, by decide⟩

theorem witness_SblSend : 1 ≤ 1 ∧ 1 ≤ 16 ∧ 1 ≤ 16 ∧ 16 ≤ 16 := by decide

theorem witness_Durations : Config.default.Legal ∧ 1 ≤ Config.default.tGap := ⟨default_legal, by decide⟩

/-- The first cycle of a `Bit(1)` with a `CSHigh` to follow, and one that is the command's last. -/
def bitStarting (es : List SerialEvent) : State :=
  { State.reset with
    csN := false
    sdata := true
    eng := .exec ⟨.inEvent (.bitSetup true) 0, es, ⟨0x8000000000000000#64, .set0, false⟩⟩
    inputs := quiet 3 }

theorem witness_BitEvent : ∀ es ∈ [[], [SerialEvent.csHigh]], (bitStarting es).cfg.Legal ∧ (bitStarting es).beenReset = true ∧
    (bitStarting es).eng = .exec ⟨.inEvent (.bitSetup true) ((bitStarting es).cfg.tSu - 1), es,
      ⟨0x8000000000000000#64, .set0, false⟩⟩ ∧ (bitStarting es).sclk = true ∧ (bitStarting es).sdata = true ∧
    NoReset (bitStarting es).cfg.dBit (bitStarting es) :=
  fun es _ => ⟨default_legal, rfl, rfl, rfl, rfl, noReset_quiet (bitStarting es) 3⟩

theorem witness_GapHolds : Inv State.reset ∧ State.reset.csN = true ∧ State.reset.gapCnt = 0 ∧ 0 < State.reset.cfg.tGap ∧
    NoReset 0 State.reset := ⟨witness_inv [], rfl, rfl, by decide, fun n hn => absurd hn (Nat.not_lt_zero n)⟩

/-- An idle state whose next cycle is quiet, and each clause of the gap rule in one of the states. -/
theorem witness_GapCounter : Inv { State.reset with inputs := quiet 1 } ∧
    ({ State.reset with inputs := quiet 1 } : State).input.rst = false ∧
    after 1 { State.reset with inputs := quiet 1 } State.csN = some true ∧
    after 1 (offered 0x9100000000000000#64 0) State.csN = some false ∧
    Inv (offered 0x9100000000000000#64 0) := ⟨witness_inv _, rfl, by decide, by decide, witness_inv _⟩

theorem witness_SdataChanges : Inv (offered 0x8000000000000001#64 0) ∧
    (offered 0x8000000000000001#64 0).input.rst = false ∧
    after 1 (offered 0x8000000000000001#64 0) State.sdata = some true := ⟨witness_inv _, rfl, by decide⟩

theorem witness_Tick : ∀ tick : Bool,
    Inv { State.reset with inputs := [{ PortIn.quiet with debTick := tick, rawIn := true }] } ∧
    ({ State.reset with inputs := [{ PortIn.quiet with debTick := tick, rawIn := true }] } : State).input.rst = false ∧
    State.reset.sync.getLast? = some false := fun _ => ⟨witness_inv _, rfl, by decide⟩

theorem witness_RawInput : Inv { State.reset with inputs := quiet 2 } ∧
    NoReset 2 { State.reset with inputs := quiet 2 } ∧
    State.reset.sync = List.replicate 2 (releasedLevel Config.default) ∧ 1 < State.reset.cfg.syncStages :=
  ⟨witness_inv _, noReset_quiet _ 2, rfl, by decide⟩

theorem witness_Assert : Config.default.thHi ≤ 163 ∧ Config.default.thHi = 160 ∧ (7#8).toNat ≤ 7 := by decide

theorem witness_Release : Config.default.thLo = 96 ∧ 248 ≤ (248#8).toNat ∧ 248 ≤ (255#8).toNat := by decide

theorem witness_FilterSettles : (248 ≤ 248 ∧ 248 ≤ 255) ∧ 7 ≤ 7 ∧ (7 ≤ 255 ∧ debFilter 255 0x00 = 224) := by decide

theorem witness_CommandsWithoutEvents : noEvents (.bcdEnc8 0#32) = true ∧
    ∃ t, exec (.bcdEnc8 0#32) State.reset = .next t := ⟨rfl, _, rfl⟩

theorem witness_SerialCommands : (∃ t, exec (.sblSend 3 5#16) State.reset = .next t) ∧
    (∃ t, exec (.sblCs true) State.reset = .next t) ∧ (∃ t, exec (.ddsSeti 0#32) (ready .set0) = .next t) ∧
    (∃ t, exec (.ddsSetf 0#32) (ready .set0) = .next t) ∧ (∃ t, exec .ddsInit State.reset = .next t) :=
  ⟨⟨_, rfl⟩, ⟨_, rfl⟩, ⟨_, rfl⟩, ⟨_, rfl⟩, ⟨_, rfl⟩⟩

theorem witness_AcceptingStep : Accepts (offered 0x9100000000000000#64 4) 0x9100000000000000#64 ∧
    decode 0x9100000000000000#64 = .instr (.sblCs true) ∧
    ∃ t, exec (.sblCs true) (offered 0x9100000000000000#64 4) = .next t :=
  ⟨⟨rfl, rfl, rfl, rfl, rfl⟩, by decide, _, rfl⟩

/-- A serial command and one without events, each with the cycles it needs. -/
theorem witness_CycleLevelAgrees : ∀ c ∈ [0x9100000000000000#64, 0xA000000000000000#64],
    Inv (offered c 4) ∧ Accepts (offered c 4) c ∧ ∃ t, performWord c (offered c 4) = .next t ∧
      commandDuration (offered c 4) t ≤ 2 ∧ NoReset 2 (offered c 4) := by
  have nr : ∀ c, NoReset 2 (offered c 4) := by
    intro c n hn
    have : n = 0 ∨ n = 1 := by omega
    rcases this with rfl | rfl <;> rfl
  intro c hc
  simp only [List.mem_cons, List.not_mem_nil, or_false] at hc
  rcases hc with rfl | rfl
  · exact ⟨witness_inv _, ⟨rfl, rfl, rfl, rfl, rfl⟩, _, rfl, by decide, nr _⟩
  · exact ⟨witness_inv _, ⟨rfl, rfl, rfl, rfl, rfl⟩, _, rfl, by decide, nr _⟩

theorem witness_ResetCycle : ({ ready .set1 with inputs := [{ PortIn.quiet with rst := true }] } : State).input.rst = true :=
  rfl

theorem witness_EveryStep : ∃ t, step { State.reset with inputs := quiet 1 } = .next t ∧
    Inv { State.reset with inputs := quiet 1 } := ⟨_, rfl, witness_inv _⟩

/-- Both ways SEL can change: completion, and reset. -/
theorem witness_SelectorChanges : (Inv initEnding ∧ ∃ t, step initEnding = .next t ∧ t.sel ≠ initEnding.sel) ∧
    after 1 { initEnding with inputs := [{ PortIn.quiet with rst := true }] } State.sel = some .set0 :=
  ⟨⟨witness_inv_initEnding, _, rfl, by decide⟩, by decide⟩

theorem witness_InitedClears : (Inv initEnding ∧ ∃ t, step initEnding = .next t ∧ initEnding.inited = false ∧
    t.inited = true) ∧
    after 1 { ready .set0 with inputs := [{ PortIn.quiet with rst := true }] } State.inited = some false :=
  ⟨⟨witness_inv_initEnding, _, rfl, by decide, by decide⟩, by decide⟩

theorem witness_Configuration : (∃ t, performWord 0#64 State.reset = .next t) ∧
    ∃ t, step { State.reset with inputs := quiet 1 } = .next t := ⟨⟨_, rfl⟩, _, rfl⟩

/-- A state in each of the engine's three states with `rst` = 0. -/
theorem witness_Handshake : ∀ ready : Bool,
    ({ State.reset with eng := .resp, inputs := [{ PortIn.quiet with rspReady := ready }] } : State).input.rst = false ∧
    (offered 0#64 0).input.rst = false ∧ (offered 0#64 0).eng = .idle ∧ (offered 0#64 0).input.cmdValid = true ∧
    initEnding.input.rst = false ∧ initEnding.eng ≠ .idle ∧ State.reset.beenReset = true ∧ initEnding.beenReset = true :=
  fun _ => ⟨rfl, rfl, rfl, rfl, rfl, by decide, rfl, rfl⟩

theorem witness_CommandData : (State.reset.eng = .idle ∧ PortIn.quiet.cmdValid = false) ∧ initEnding.eng ≠ .idle ∧
    (∃ t, step { State.reset with eng := .resp, inputs := quiet 1 } = .next t) ∧ State.reset.beenReset = true :=
  ⟨by decide, by decide, ⟨_, rfl⟩, rfl⟩

theorem witness_TwoRuns : SameDebounce State.reset (ready .set1) ∧ SameCommand State.reset
    { State.reset with acc := 5#8 } ∧ State.reset.pub = ({ State.reset with acc := 5#8 } : State).pub ∧
    State.reset.beenReset = true ∧ (ready .set1).beenReset = true := by
  refine ⟨⟨rfl, rfl, rfl, rfl⟩, ⟨rfl, rfl, rfl, rfl, rfl, rfl, rfl, rfl, rfl, rfl, rfl⟩, rfl, rfl, rfl⟩

/-- A block just powered on, with and without `rst`, and two that hold different things. -/
theorem witness_BeforeTheFirstReset : ∀ rst : Bool,
    (State.powerOn Config.default [{ PortIn.quiet with rst := rst }]).beenReset = false ∧
    (State.powerOn Config.default [{ PortIn.quiet with rst := rst }]).input.rst = rst ∧
    (State.powerOn Config.default [{ PortIn.quiet with rst := rst }]).cfg.Legal ∧
    ({ ready .set1 with beenReset := false, inputs := quiet 1 } : State).cfg = Config.default ∧
    ({ ready .set1 with beenReset := false, inputs := quiet 1 } : State).clock = (State.powerOn Config.default []).clock :=
  fun _ => ⟨rfl, rfl, default_legal, rfl, rfl⟩

/-- R342: one reset cycle after power-on gives the reset state, whatever the elements held. -/
theorem test_reset_ends_the_unspecified_state (s : State) :
    after 1 { s with beenReset := false, inputs := [{ PortIn.quiet with rst := true }] }
      (fun t => (t.beenReset, t.eng, t.csN, t.sel)) = some (true, .idle, true, .set0) := rfl

/-- R61, U15: nothing is known of the chip after a frame that is not of whole words; a phase word of the default layout. -/
theorem test_chip_partial_frame : Chip.frame Config.default Chip.unknown (List.replicate 17 true) = Chip.unknown := by decide
theorem test_chip_init_words :
    chipAfter Config.default Chip.unknown (frameEvents true (initWords Config.default)) =
      ⟨some 0, some 0, some 0, some 0, none, some .set1, some false⟩ := by decide +kernel
theorem test_chip_source_differs : sourceOf Config.default 0x2800#16 = none := by decide

end Sys2Proof.Tests
end

section
/-! PROOFS. A command word that decodes is the word its instruction encodes to, so acceptance and the transaction level write the same
CMD. -/

namespace Sys2Proof

/-- A bit vector whose high part is 0 is its zero-extended low part. -/
theorem zeroExtend_extractLsb'_low {w : Nat} (n m : Nat) (x : BitVec w) (hw : n + m = w)
    (h : x.extractLsb' n m = 0) : (x.extractLsb' 0 n).zeroExtend w = x := by
  apply BitVec.eq_of_getLsbD_eq
  intro i hi
  have hbit : (x.extractLsb' n m).getLsbD (i - n) = false := by rw [h]; exact BitVec.getLsbD_zero
  by_cases hn : i < n
  · simp [hi, hn]
  · have him : i - n < m := by omega
    rw [BitVec.getLsbD_extractLsb', show n + (i - n) = i by omega, decide_eq_true him, Bool.true_and] at hbit
    simp [hn, hbit]

theorem zeroExtend_dataLow32 {data : Word40} (h : highDataSet data = false) :
    (dataLow32 data).zeroExtend 40 = data :=
  zeroExtend_extractLsb'_low 32 8 data rfl (by simpa [highDataSet] using h)

/-- AUX with its reserved bits clear is the one bit that the opcode map reads (R95, R97): here set. -/
theorem aux_eq_one {aux : Nibble} (h : aux.extractLsb' 1 3 = 0#3) (hb : aux.getLsbD 0 = true) : aux = 1#4 := by
  revert aux; decide

/-- AUX with its reserved bits and the one bit that the opcode map reads clear is 0. -/
theorem aux_eq_zero {aux : Nibble} (h : aux.extractLsb' 1 3 = 0#3) (hb : ¬ aux.getLsbD 0 = true) : aux = 0#4 := by
  revert aux; decide

/-- A row without a reserved bit set is read from exactly the fields its instruction encodes to (R95, R97, R100). -/
theorem encode_of_opcodeRow {op aux : Nibble} {data : Word40} {row : Row}
    (h : opcodeRow op aux data = some row) (hr : row.reserved = false) :
    encode row.instr = cmdWord op aux data := by
  have low32 {op aux : Nibble} (hd : highDataSet data = false) :
      cmdWord op aux ((dataLow32 data).zeroExtend 40) = cmdWord op aux data := by
    rw [zeroExtend_dataLow32 hd]
  unfold opcodeRow at h
  repeat' split at h
  all_goals cases h
  all_goals simp only [Bool.or_eq_false_iff, bne_eq_false_iff_eq] at hr
  all_goals subst op
  · obtain rfl := aux_eq_one hr.1 ‹_›
    exact low32 hr.2
  · obtain rfl := aux_eq_zero hr.1 ‹_›
    exact low32 hr.2
  · obtain rfl := aux_eq_one hr ‹_›
    rfl
  · obtain rfl := aux_eq_zero hr.1 ‹_›
    exact low32 hr.2
  iterate 4
    · obtain ⟨rfl, hd⟩ := hr
      exact low32 hd
  · obtain ⟨rfl, rfl⟩ := hr
    rfl
  · simp only [encode, Nat.add_sub_cancel, BitVec.ofNat_toNat, BitVec.setWidth_eq]
    rw [zeroExtend_extractLsb'_low 16 24 data rfl hr]
  · obtain ⟨ha, rfl⟩ := hr
    by_cases hb : aux.getLsbD 0 = true
    · obtain rfl := aux_eq_one ha hb
      rfl
    · obtain rfl := aux_eq_zero ha hb
      rfl
  · obtain ⟨rfl, rfl⟩ := hr
    rfl

/-- Each word has one meaning: what it decodes to encodes to it (R94, R100). -/
theorem encode_of_decode {c : Word64} {i : Instr} (h : decode c = .instr i) : encode i = c := by
  unfold decode at h
  split at h
  · cases h
  · rename_i row hrow
    split at h
    · cases h
    · rename_i hclear
      cases h
      simp only [Bool.or_eq_true, bne_iff_ne, not_or, not_not, Bool.not_eq_true] at hclear
      obtain ⟨hrsvd, hreserved⟩ := hclear
      rw [encode_of_opcodeRow hrow hreserved]
      conv_rhs => rw [word_eq_fields c, hrsvd]
      rfl

namespace Machine

@[simp] theorem outcomeState_cmd (c : Word64) (st : Status) (r : Word40) (es : List SerialEvent) (sel : RegSet)
    (ini : Bool) (s : State) : (outcomeState c st r es sel ini s).cmd = c := by
  simp [outcomeState]

/-- Every word is in CMD of its outcome (R103). -/
theorem performWord_cmd {c : Word64} {s t : State} (h : performWord c s = .next t) : t.cmd = c := by
  unfold performWord at h
  split at h
  · rename_i i hd
    obtain ⟨st, r, es, sel, ini, he, -⟩ := exec_outcome i s
    rw [he] at h
    cases h
    rw [outcomeState_cmd, encode_of_decode hd]
  · cases h
    rfl

end Machine

end Sys2Proof
end

section
/-! PROOFS. The state right after reset, and the cycle that accepts a command word. -/

namespace Sys2Proof.Machine

/-! ## Right after reset -/

theorem legal_default : Config.default.Legal := by constructor <;> decide

theorem inv_resetWith {c : Config} (hc : c.Legal) : Inv (State.resetWith c) where
  beenReset := rfl
  legal := hc
  sync := List.length_replicate
  gapLe := Nat.zero_le _
  gapLow := fun _ => rfl
  released := fun _ => Nat.zero_le _
  asserted := fun h => nomatch h
  form := (⟨by decide, by decide, by decide⟩ : RspForm 0#64)
  answers := fun h => nomatch h
  clockHigh := fun _ => rfl
  job := fun _ h => nomatch h

/-- Settles O50: each clause of the invariant is read off the reset values, whatever the legal configuration. -/
theorem invariantHoldsAfterReset : Obligations.InvariantHoldsAfterReset :=
  ⟨legal_default, inv_resetWith legal_default, fun _ hc => inv_resetWith hc⟩

/-! ## What begins a command -/

/-- In a cycle without reset, after the first one, a step is the command engine's edge and the debounce engine's. -/
theorem step_of_commandEdge {s u : State} (hr : s.input.rst = false) (hb : s.beenReset = true)
    (hu : s.commandEdge s.input = .next u) : step s = .next (u.debounceEdge s.input).passCycle := by
  simp [step, clockEdge, hr, hb, hu]

theorem step_of_accepts {s t : State} {c : Word64} (h : Accepts s c) (ht : performWord c s = .next t) :
    step s = .next ((State.begin c t s).debounceEdge s.input).passCycle :=
  step_of_commandEdge h.noReset h.beenReset (by simp [State.commandEdge, h.idle, h.valid, h.data, ht])

theorem step_of_exec {s : State} {j : Job} (he : s.eng = .exec j) (hr : s.input.rst = false)
    (hb : s.beenReset = true) : step s = .next ((s.countGap.advance j).debounceEdge s.input).passCycle :=
  step_of_commandEdge hr hb (by simp [State.commandEdge, he])

/-- An event that begins leaves the engine in EXEC with the completion to come; else it moves only CS_N, SDATA and GAP_CNT. -/
theorem startEvent_eq (s : State) (e : SerialEvent) (es : List SerialEvent) (k : Commit) :
    ∃ p left, s.startEvent e es k =
      { s with
        eng := .exec ⟨.inEvent p left, es, k⟩
        csN := (s.startEvent e es k).csN
        sdata := (s.startEvent e es k).sdata
        gapCnt := (s.startEvent e es k).gapCnt } := by
  cases e with
  | bit b => exact ⟨_, _, rfl⟩
  | csHigh => exact ⟨_, _, rfl⟩
  | csLow =>
    simp only [State.startEvent, State.lowerCs]
    split <;> exact ⟨_, _, rfl⟩

/-- Where a command has begun, it is in EXEC with all it will write still to come, or it had nothing left to do and is complete
(R105, R237; log entry 6). -/
theorem startAfter_cases (lat : Nat) (es : List SerialEvent) (k : Commit) (s : State) :
    (∃ j, s.startAfter lat es k = { s with
        eng := .exec j
        csN := (s.startAfter lat es k).csN
        sdata := (s.startAfter lat es k).sdata
        gapCnt := (s.startAfter lat es k).gapCnt } ∧ j.commit = k) ∨
      (es = [] ∧ s.startAfter lat es k = s.complete k) := by
  rcases lat with _ | n
  · cases es with
    | nil => exact .inr ⟨rfl, rfl⟩
    | cons e es =>
      obtain ⟨p, left, h⟩ := startEvent_eq s e es k
      exact .inl ⟨_, h, rfl⟩
  · exact .inl ⟨_, rfl, rfl⟩

/-- Settles O45: the accepting edge is `begin`, which writes CMD and the event list and then either holds the outcome's response, SEL
and INITED in the job or, with no event and no latency, writes them at once. -/
theorem acceptingStepRunsTheDecodedCommand : Obligations.AcceptingStepRunsTheDecodedCommand := by
  intro s t c i hacc hdec hexec
  have hperform : performWord c s = .next t := by simp only [performWord, hdec, hexec]
  refine ⟨step_of_accepts hacc hperform, ?_⟩
  unfold State.begin
  rcases startAfter_cases (latencyOf s.cfg t.rsp) t.emitted ⟨t.rsp, t.sel, t.inited⟩
    { s.countGap with cmd := c, emitted := t.emitted } with ⟨j, h, hj⟩ | ⟨hes, h⟩
  · rw [h]
    exact ⟨rfl, rfl, .inl ⟨j, rfl, hj, rfl, rfl, rfl⟩⟩
  · rw [h]
    exact ⟨rfl, rfl, .inr ⟨hes, rfl, rfl, rfl, rfl⟩⟩

/-! ## The environment's side of a step -/

/-- The input levels to come, and the count of cycles, are the same in two states. -/
def SameEnvironment (s u : State) : Prop := u.inputs = s.inputs ∧ u.clock = s.clock

theorem nextEvent_environment (s : State) (es : List SerialEvent) (k : Commit) :
    SameEnvironment s (s.nextEvent es k) := by
  cases es with
  | nil => exact ⟨rfl, rfl⟩
  | cons e es =>
    obtain ⟨p, left, h⟩ := startEvent_eq s e es k
    rw [State.nextEvent, h]
    exact ⟨rfl, rfl⟩

theorem endPhase_environment (s : State) (p : Phase) (es : List SerialEvent) (k : Commit) :
    SameEnvironment s (s.endPhase p es k) := by
  cases p with
  | bitSetup b => exact ⟨rfl, rfl⟩
  | bitLow b => exact ⟨rfl, rfl⟩
  | csHold => exact ⟨rfl, rfl⟩
  | gapWait => exact nextEvent_environment s (.csLow :: es) k
  | bitHigh b => exact nextEvent_environment s es k
  | csSelected => exact nextEvent_environment s es k
  | csReleased => exact nextEvent_environment s es k

theorem advance_environment (s : State) (j : Job) : SameEnvironment s (s.advance j) := by
  obtain ⟨pos, es, k⟩ := j
  match pos with
  | .latency 0 => exact nextEvent_environment s es k
  | .latency (n + 1) => exact ⟨rfl, rfl⟩
  | .inEvent p 0 => exact endPhase_environment s p es k
  | .inEvent p (n + 1) => exact ⟨rfl, rfl⟩

theorem begin_environment (c : Word64) (t s : State) : SameEnvironment s (State.begin c t s) := by
  unfold State.begin State.startAfter
  split
  · exact nextEvent_environment { s.countGap with cmd := c, emitted := t.emitted } _ _
  · exact ⟨rfl, rfl⟩

theorem commandEdge_environment {p : PortIn} {s u : State} (h : s.commandEdge p = .next u) :
    SameEnvironment s u := by
  rcases commandEdge_cases p s with ⟨-, -, e⟩ | ⟨-, -, t, -, e⟩ | ⟨j, -, e⟩ | ⟨-, -, e⟩ | ⟨-, -, e⟩ <;>
    rw [e] at h <;> cases h
  · exact ⟨rfl, rfl⟩
  · exact begin_environment p.cmdData t s
  · exact advance_environment s.countGap j
  · exact ⟨rfl, rfl⟩
  · exact ⟨rfl, rfl⟩

/-- Whatever a step does, the next input levels come up and the cycle is counted (log entry 1). -/
theorem step_environment {s u : State} (h : step s = .next u) :
    u.inputs = s.inputs.tail ∧ u.clock = s.clock + 1 := by
  rcases step_cases s with ⟨-, e⟩ | ⟨-, -, e⟩ | ⟨-, -, v, hv, e⟩ <;> rw [e] at h <;> cases h
  · exact ⟨rfl, rfl⟩
  · exact ⟨rfl, rfl⟩
  · obtain ⟨hi, hc⟩ := commandEdge_environment hv
    exact ⟨congrArg List.tail hi, congrArg (· + 1) hc⟩

theorem inputAt_zero (s : State) : s.inputAt 0 = s.input := by
  unfold State.inputAt State.input
  cases s.inputs <;> rfl

/-- The levels `n` cycles ahead of the next cycle are those `n + 1` ahead of this one. -/
theorem inputAt_step {s u : State} (h : step s = .next u) (n : Nat) : u.inputAt n = s.inputAt (n + 1) := by
  obtain ⟨hi, hc⟩ := step_environment h
  simp only [State.inputAt, hi, hc, List.getElem?_tail, Nat.add_right_comm, Nat.add_assoc]

theorem NoReset.head {s : State} {k : Nat} (h : NoReset (k + 1) s) : s.input.rst = false := by
  rw [← inputAt_zero]
  exact h 0 (Nat.succ_pos k)

theorem NoReset.tail {s u : State} {k : Nat} (h : NoReset (k + 1) s) (hs : step s = .next u) : NoReset k u :=
  fun m hm => by
    rw [inputAt_step hs]
    exact h (m + 1) (Nat.succ_lt_succ hm)

theorem runCycles_succ {s u : State} (h : step s = .next u) (k : Nat) : runCycles (k + 1) s = runCycles k u := by
  rw [runCycles, h]

theorem watch_succ {s u : State} (h : step s = .next u) (k : Nat) (r : Receiver) :
    watch (k + 1) s r = watch k u (r.see s.lines u.lines) := by
  rw [watch, h]

end Sys2Proof.Machine
end

section
/-! PROOFS. The clock-cycle machine performs the transaction-level outcome of a command (00_scope.md R15). A simulation: `OnCourse t R n s r`
says that state `s`, with receiver `r` on its lines, is `n` cycles before the response of a command with outcome `t`, and that the
receiver is `R` then. Acceptance establishes it, a cycle takes `n + 1` to `n`, and at `n = 0` the response is there. -/

namespace Sys2Proof.Machine

/-! ## The lines and the receiver over one event (R230, R238) -/

/-- The lines after one performed serial event. -/
def Lines.event (l : Lines) : SerialEvent → Lines
  | .csLow => { l with csN := false }
  | .csHigh => { l with csN := true }
  | .bit b => { l with sclk := true, sdata := b }

/-- The lines outside a low pulse of SCLK. -/
def Lines.clockHigh (l : Lines) : Lines := { l with sclk := true }

theorem Lines.clockHigh_of_sclk {l : Lines} (h : l.sclk = true) : l.clockHigh = l := by
  cases l; cases h; rfl

theorem foldl_perform_lines (s : State) (es : List SerialEvent) :
    (es.foldl State.perform s).lines = es.foldl Lines.event s.lines := by
  induction es generalizing s with
  | nil => rfl
  | cons e es ih => rw [List.foldl_cons, ih, List.foldl_cons]; cases e <;> rfl

/-- Without an edge of CS_N or SCLK a receiver sees nothing. -/
theorem Receiver.see_of_no_edge {old new : Lines} (r : Receiver) (hc : new.csN = old.csN)
    (hk : new.sclk = old.sclk) : r.see old new = r := by
  simp [Receiver.see, hc, hk]

theorem Receiver.see_csFall {old new : Lines} (r : Receiver) (ho : old.csN = true) (hn : new.csN = false)
    (hk : new.sclk = old.sclk) : r.see old new = r.event .csLow := by
  simp [Receiver.see, Receiver.event, ho, hn, hk]

theorem Receiver.see_csRise {old new : Lines} (r : Receiver) (ho : old.csN = false) (hn : new.csN = true)
    (hk : new.sclk = old.sclk) : r.see old new = r.event .csHigh := by
  simp [Receiver.see, Receiver.event, ho, hn, hk]

theorem Receiver.see_clockFall {old new : Lines} (r : Receiver) (hc : new.csN = old.csN) (ho : old.sclk = true)
    (hn : new.sclk = false) : r.see old new = r.event (.bit new.sdata) := by
  simp [Receiver.see, Receiver.event, ho, hn, hc]

theorem Receiver.see_clockRise {old new : Lines} (r : Receiver) (hc : new.csN = old.csN) (ho : old.sclk = false) :
    r.see old new = r := by
  simp [Receiver.see, ho, hc]

/-! ## How far a command in progress is -/

/-- The event in progress, while the edge by which a receiver sees it is still to come. -/
def Pos.unseen : Pos → List SerialEvent
  | .inEvent (.bitSetup b) _ => [.bit b]
  | .inEvent .gapWait _ => [.csLow]
  | .inEvent .csHold _ => [.csHigh]
  | .inEvent (.bitLow _) _ => []
  | .inEvent (.bitHigh _) _ => []
  | .inEvent .csSelected _ => []
  | .inEvent .csReleased _ => []
  | .latency _ => []

/-- The cycles up to the end of the latency or of the event in progress, this cycle included, where GAP_CNT is `gap` (R233-R235). -/
def Pos.cyclesLeft (c : Config) (gap : Nat) : Pos → Nat
  | .latency n => n + 1
  | .inEvent (.bitSetup _) n => n + 1 + c.tLo + c.tHi
  | .inEvent (.bitLow _) n => n + 1 + c.tHi
  | .inEvent (.bitHigh _) n => n + 1
  | .inEvent .gapWait _ => c.tGap - gap + c.tCss
  | .inEvent .csSelected n => n + 1
  | .inEvent .csHold n => n + 1 + 1
  | .inEvent .csReleased n => n + 1

/-- GAP_CNT after `n` more cycles without an edge of CS_N (R42, R236). -/
def gapOn (c : Config) (gap : Nat) (csN : Bool) (n : Nat) : Nat := if csN then min c.tGap (gap + n) else 0

theorem gapOn_countGap {s : State} {m n : Nat} (h : n = m + 1) :
    gapOn s.cfg s.countGap.gapCnt s.csN m = gapOn s.cfg s.gapCnt s.csN n := by
  subst h
  cases hcs : s.csN <;> simp only [gapOn, State.countGap_gapCnt, hcs, if_true, Bool.false_eq_true, if_false]
  omega

/-- GAP_CNT in the first cycle after those (R236): counted on while CS_N is high, from 0 where it rises on the way. -/
def Pos.gapAfter (c : Config) (gap : Nat) (csN : Bool) (p : Pos) : Nat :=
  match p with
  | .inEvent .csHold _ => min c.tGap 1
  | .inEvent .gapWait _ => 0
  | p => gapOn c gap csN (p.cyclesLeft c gap)

/-- The cycles from this one to the first with the response. -/
def State.cyclesToResponse (s : State) (pos : Pos) (es : List SerialEvent) : Nat :=
  pos.cyclesLeft s.cfg s.gapCnt +
    eventsDuration s.cfg (pos.gapAfter s.cfg s.gapCnt s.csN) (csAfter s.csN pos) es

/-! ## The simulation relation -/

/-- What every cycle of a command with outcome `t` holds, the one with the response included. -/
structure Carries (t s : State) : Prop where
  beenReset : s.beenReset = true
  legal : s.cfg.Legal
  cfg : s.cfg = t.cfg
  cmd : s.cmd = t.cmd
  emitted : s.emitted = t.emitted
  gapLe : s.gapCnt ≤ s.cfg.tGap
  gapLow : s.csN = false → s.gapCnt = 0

/-- The response of a command with outcome `t` is there. -/
structure Answered (t s : State) : Prop where
  eng : s.eng = .resp
  rsp : s.rsp = t.rsp
  sel : s.sel = t.sel
  inited : s.inited = t.inited
  lines : s.lines = t.lines

/-- What completion of a command with outcome `t` writes (R237). -/
def commitOf (t : State) : Commit := ⟨t.rsp, t.sel, t.inited⟩

/-- A command with outcome `t` is at `pos`, with `es` to come after the event in progress: they lead the lines to those of `t`, and
receiver `r` to `R`. -/
structure InProgress (t : State) (R : Receiver) (s : State) (r : Receiver) (pos : Pos) (es : List SerialEvent) :
    Prop where
  eng : s.eng = .exec ⟨pos, es, commitOf t⟩
  levels : posOk s.cfg s.lines pos
  stalled : ∀ n, pos = .inEvent .gapWait n → s.gapCnt < s.cfg.tGap
  framed : wellFramed (csAfter s.csN pos) es = true
  lines : (pos.unseen ++ es).foldl Lines.event s.lines.clockHigh = t.lines
  seen : (pos.unseen ++ es).foldl Receiver.event r = R

/-- State `s` with receiver `r` on its lines is `n` cycles before the response of a command with outcome `t`, and the receiver is `R`
then. -/
inductive OnCourse (t : State) (R : Receiver) : Nat → State → Receiver → Prop
  | answered {s : State} : Carries t s → Answered t s → OnCourse t R 0 s R
  | inProgress {n : Nat} {s : State} {r : Receiver} {pos : Pos} {es : List SerialEvent} :
      Carries t s → InProgress t R s r pos es → n = s.cyclesToResponse pos es → OnCourse t R n s r

/-- In the middle of an edge, with GAP_CNT counted on, the events `es` are to come back to back. -/
structure Between (t : State) (R : Receiver) (s : State) (r : Receiver) (es : List SerialEvent) : Prop where
  carries : Carries t s
  clock : s.sclk = true
  framed : wellFramed s.csN es = true
  lines : es.foldl Lines.event s.lines = t.lines
  seen : es.foldl Receiver.event r = R

section

variable {t s : State} {R r : Receiver} {n : Nat} {pos : Pos} {es : List SerialEvent}

theorem countGap_le (s : State) : s.countGap.gapCnt ≤ s.cfg.tGap := by
  rw [State.countGap_gapCnt]
  split
  · exact Nat.min_le_left _ _
  · exact Nat.zero_le _

theorem countGap_of_low (s : State) (h : s.csN = false) : s.countGap.gapCnt = 0 :=
  if_neg (Bool.eq_false_iff.mp h)

theorem Carries.countGap (h : Carries t s) : Carries t s.countGap :=
  { h with gapLe := countGap_le s, gapLow := countGap_of_low s }

/-- The debounce engine and the environment do not touch a command in progress. -/
theorem OnCourse.debounceEdge_passCycle (h : OnCourse t R n s r) (p : PortIn) :
    OnCourse t R n (s.debounceEdge p).passCycle r := by
  cases h with
  | answered hc ha => exact .answered { hc with } { ha with }
  | inProgress hc hp hn => exact .inProgress { hc with } { hp with } hn

/-- The receiver may be given by what the edge from lines `old` to `new` shows it. -/
theorem OnCourse.of_see {old new : Lines} {r' : Receiver} (hsee : r.see old new = r') (h : OnCourse t R n s r') :
    OnCourse t R n s (r.see old new) :=
  hsee ▸ h

/-! ## Where an event begins -/

/-- `CSLow`: CS_N falls at this edge, or stalls for the cycles GAP_CNT still has to count (R234). -/
theorem onCourse_lowerCs (h : Between t R s r (.csLow :: es)) :
    OnCourse t R (eventsDuration s.cfg s.gapCnt s.csN (.csLow :: es)) (s.lowerCs es (commitOf t))
      (r.see s.lines (s.lowerCs es (commitOf t)).lines) := by
  obtain ⟨hc, hclk, hframed, hl, hr⟩ := h
  simp only [wellFramed, Bool.and_eq_true] at hframed
  obtain ⟨hcs, hframed⟩ := hframed
  have hcss := hc.legal.tCss_pos
  unfold State.lowerCs
  split
  case isTrue hgap =>
    refine .of_see (r.see_csFall hcs rfl rfl)
      (.inProgress (pos := .inEvent .csSelected (s.cfg.tCss - 1)) (es := es)
        { hc with gapLe := Nat.zero_le _, gapLow := fun _ => rfl } ?_ ?_)
    · exact ⟨rfl, ⟨hclk, rfl, Nat.sub_lt hcss one_pos⟩, nofun, hframed,
        by rw [Lines.clockHigh_of_sclk hclk]; exact hl, hr⟩
    · show eventsDuration s.cfg s.gapCnt s.csN (.csLow :: es) =
        s.cfg.tCss - 1 + 1 + eventsDuration s.cfg 0 false es
      simp only [eventsDuration]
      omega
  case isFalse hgap =>
    refine .of_see (r.see_of_no_edge rfl rfl)
      (.inProgress (pos := .inEvent .gapWait 0) (es := es) { hc with } ?_ rfl)
    exact ⟨rfl, ⟨hclk, hcs, rfl⟩, fun _ _ => Nat.lt_of_le_of_ne hc.gapLe hgap, hframed,
      by rw [Lines.clockHigh_of_sclk hclk]; exact hl, hr⟩

/-- The next event begins at this edge, or after the last one the response is there (R237). -/
theorem onCourse_nextEvent (h : Between t R s r es) :
    OnCourse t R (eventsDuration s.cfg s.gapCnt s.csN es) (s.nextEvent es (commitOf t))
      (r.see s.lines (s.nextEvent es (commitOf t)).lines) := by
  match es with
  | [] =>
    obtain ⟨hc, hclk, -, hl, hr⟩ := h
    obtain rfl : r = R := hr
    exact .of_see (r.see_of_no_edge rfl rfl) (.answered { hc with } ⟨rfl, rfl, rfl, rfl, hl⟩)
  | .csLow :: es => exact onCourse_lowerCs h
  | .csHigh :: es =>
    obtain ⟨hc, hclk, hframed, hl, hr⟩ := h
    simp only [wellFramed, Bool.and_eq_true, Bool.not_eq_true'] at hframed
    obtain ⟨hcs, hframed⟩ := hframed
    have hcsh := hc.legal.tCsh_pos
    refine .of_see (r.see_of_no_edge rfl rfl)
      (.inProgress (pos := .inEvent .csHold (s.cfg.tCsh - 1)) (es := es) { hc with } ?_ ?_)
    · exact ⟨rfl, ⟨hclk, hcs, Nat.sub_lt hcsh one_pos⟩, nofun, hframed,
        by rw [Lines.clockHigh_of_sclk hclk]; exact hl, hr⟩
    · show eventsDuration s.cfg s.gapCnt s.csN (.csHigh :: es) =
        s.cfg.tCsh - 1 + 1 + 1 + eventsDuration s.cfg (min s.cfg.tGap 1) true es
      simp only [eventsDuration]
      omega
  | .bit b :: es =>
    obtain ⟨hc, hclk, hframed, hl, hr⟩ := h
    have hsu := hc.legal.tSu_pos
    refine .of_see (r.see_of_no_edge rfl rfl)
      (.inProgress (pos := .inEvent (.bitSetup b) (s.cfg.tSu - 1)) (es := es) { hc with } ?_ ?_)
    · exact ⟨rfl, ⟨hclk, rfl, Nat.sub_lt hsu one_pos⟩, nofun, hframed, hl, hr⟩
    · have hbit : s.cfg.tSu - 1 + 1 + s.cfg.tLo + s.cfg.tHi = s.cfg.dBit := by rw [Nat.sub_add_cancel hsu]; rfl
      show eventsDuration s.cfg s.gapCnt s.csN (.bit b :: es) =
        s.cfg.tSu - 1 + 1 + s.cfg.tLo + s.cfg.tHi + eventsDuration s.cfg
          (gapOn s.cfg s.gapCnt s.csN (s.cfg.tSu - 1 + 1 + s.cfg.tLo + s.cfg.tHi)) s.csN es
      rw [hbit]
      rfl

/-! ## One cycle of a command in progress -/

/-- A cycle without an edge of CS_N brings the response one cycle nearer, where position `pos` has one cycle more left than the next
position and leads to the same level and count. -/
theorem cyclesToResponse_next {s' : State} {pos' : Pos} (htime : s.cyclesToResponse pos es = n + 1)
    (hcfg : s'.cfg = s.cfg) (hcs : s'.csN = s.csN)
    (hleft : pos.cyclesLeft s.cfg s.gapCnt = pos'.cyclesLeft s.cfg s'.gapCnt + 1)
    (hafter : csAfter s.csN pos' = csAfter s.csN pos)
    (hgap : pos'.gapAfter s.cfg s'.gapCnt s.csN = pos.gapAfter s.cfg s.gapCnt s.csN) :
    n = s'.cyclesToResponse pos' es := by
  unfold State.cyclesToResponse at htime ⊢
  rw [hcfg, hcs, hafter, hgap]
  omega

/-- Where a latency, or a phase that is its event's last, ends with this cycle, the events after it come next. -/
theorem onCourse_of_last_cycle (hc : Carries t s) (hp : InProgress t R s r pos es) (hclk : s.sclk = true)
    (hunseen : pos.unseen = []) (hcs : csAfter s.csN pos = s.csN)
    (htime : s.cyclesToResponse pos es = n + 1)
    (hone : s.cyclesToResponse pos es = 1 + eventsDuration s.cfg s.countGap.gapCnt s.csN es) :
    OnCourse t R n (s.countGap.nextEvent es (commitOf t))
      (r.see s.lines (s.countGap.nextEvent es (commitOf t)).lines) := by
  obtain ⟨-, -, -, hframed, hl, hr⟩ := hp
  rw [hcs] at hframed
  rw [hunseen, List.nil_append] at hl hr
  rw [Lines.clockHigh_of_sclk hclk] at hl
  obtain rfl : n = eventsDuration s.cfg s.countGap.gapCnt s.csN es := by omega
  exact onCourse_nextEvent (s := s.countGap) ⟨hc.countGap, hclk, hframed, hl, hr⟩

/-- The last cycle of phase `p` (R233-R235). -/
theorem onCourse_endPhase {p : Phase} (hc : Carries t s) (hp : InProgress t R s r (.inEvent p 0) es)
    (htime : s.cyclesToResponse (.inEvent p 0) es = n + 1) :
    OnCourse t R n (s.countGap.endPhase p es (commitOf t))
      (r.see s.lines (s.countGap.endPhase p es (commitOf t)).lines) := by
  cases p with
  | bitHigh b => exact onCourse_of_last_cycle hc hp hp.levels.1 rfl rfl htime rfl
  | csSelected => exact onCourse_of_last_cycle hc hp hp.levels.1 rfl rfl htime rfl
  | csReleased => exact onCourse_of_last_cycle hc hp hp.levels.1 rfl rfl htime rfl
  | bitSetup b =>
    obtain ⟨-, ⟨hclk, hb, -⟩, -, hframed, hl, hr⟩ := hp
    have hlo := hc.legal.tLo_pos
    have hleft : 0 + 1 + s.cfg.tLo + s.cfg.tHi = s.cfg.tLo - 1 + 1 + s.cfg.tHi + 1 := by omega
    subst hb
    refine .of_see (r.see_clockFall rfl hclk rfl)
      (.inProgress (pos := .inEvent (.bitLow s.sdata) (s.cfg.tLo - 1)) (es := es) { hc.countGap with } ?_ ?_)
    · exact ⟨rfl, ⟨rfl, rfl, Nat.sub_lt hlo one_pos⟩, nofun, hframed, hl, hr⟩
    · exact cyclesToResponse_next htime rfl rfl hleft rfl (gapOn_countGap hleft)
  | bitLow b =>
    obtain ⟨-, ⟨hclk, hb, -⟩, -, hframed, hl, hr⟩ := hp
    have hhi := hc.legal.tHi_pos
    have hleft : 0 + 1 + s.cfg.tHi = s.cfg.tHi - 1 + 1 + 1 := by omega
    subst hb
    refine .of_see (r.see_clockRise rfl hclk)
      (.inProgress (pos := .inEvent (.bitHigh s.sdata) (s.cfg.tHi - 1)) (es := es) { hc.countGap with } ?_ ?_)
    · exact ⟨rfl, ⟨rfl, rfl, Nat.sub_lt hhi one_pos⟩, nofun, hframed, hl, hr⟩
    · exact cyclesToResponse_next htime rfl rfl hleft rfl (gapOn_countGap hleft)
  | gapWait =>
    obtain ⟨-, ⟨hclk, hcs, -⟩, hstalled, hframed, hl, hr⟩ := hp
    have hgap : s.countGap.gapCnt = s.gapCnt + 1 :=
      (if_pos hcs).trans (Nat.min_eq_right (hstalled 0 rfl))
    have hn : n = eventsDuration s.cfg s.countGap.gapCnt s.csN (.csLow :: es) := by
      have hlt := hstalled 0 rfl
      simp only [State.cyclesToResponse, Pos.cyclesLeft, Pos.gapAfter, csAfter] at htime
      simp only [eventsDuration, hgap]
      omega
    rw [Lines.clockHigh_of_sclk hclk] at hl
    subst hn
    exact onCourse_lowerCs (s := s.countGap)
      ⟨hc.countGap, hclk, Bool.and_eq_true_iff.mpr ⟨hcs, hframed⟩, hl, hr⟩
  | csHold =>
    obtain ⟨-, ⟨hclk, hcs, -⟩, -, hframed, hl, hr⟩ := hp
    refine .of_see (r.see_csRise hcs rfl rfl)
      (.inProgress (pos := .inEvent .csReleased 0) (es := es)
        { hc with gapLe := Nat.zero_le _, gapLow := nofun } ?_ ?_)
    · exact ⟨rfl, ⟨hclk, rfl, rfl⟩, nofun, hframed, hl, hr⟩
    · exact Nat.succ.inj (htime.symm.trans (Nat.add_right_comm _ _ _))

/-- A phase that lasts another cycle has the levels it had (R233-R235), and it is no stall. -/
theorem phaseOk_of_succ {c : Config} {l : Lines} {p : Phase} {left : Nat} (h : phaseOk c l p (left + 1)) :
    phaseOk c l p left ∧ p ≠ .gapWait := by
  cases p with
  | gapWait => exact absurd h.2.2 (Nat.succ_ne_zero left)
  | csReleased => exact absurd h.2.2 (Nat.succ_ne_zero left)
  | bitSetup b => exact ⟨⟨h.1, h.2.1, Nat.lt_of_succ_lt h.2.2⟩, nofun⟩
  | bitLow b => exact ⟨⟨h.1, h.2.1, Nat.lt_of_succ_lt h.2.2⟩, nofun⟩
  | bitHigh b => exact ⟨⟨h.1, h.2.1, Nat.lt_of_succ_lt h.2.2⟩, nofun⟩
  | csSelected => exact ⟨⟨h.1, h.2.1, Nat.lt_of_succ_lt h.2.2⟩, nofun⟩
  | csHold => exact ⟨⟨h.1, h.2.1, Nat.lt_of_succ_lt h.2.2⟩, nofun⟩

theorem unseen_inEvent (p : Phase) (m m' : Nat) : (Pos.inEvent p m).unseen = (Pos.inEvent p m').unseen := by
  cases p <;> rfl

theorem csAfter_inEvent (csN : Bool) (p : Phase) (m m' : Nat) :
    csAfter csN (.inEvent p m) = csAfter csN (.inEvent p m') := by
  cases p <;> rfl

theorem cyclesLeft_hold {p : Phase} (hne : p ≠ .gapWait) (c : Config) (gap gap' m : Nat) :
    (Pos.inEvent p (m + 1)).cyclesLeft c gap = (Pos.inEvent p m).cyclesLeft c gap' + 1 := by
  cases p with
  | gapWait => exact absurd rfl hne
  | bitSetup b => simp only [Pos.cyclesLeft]; omega
  | bitLow b => simp only [Pos.cyclesLeft]; omega
  | bitHigh b => rfl
  | csSelected => rfl
  | csHold => rfl
  | csReleased => rfl

theorem gapAfter_hold {p : Phase} (hne : p ≠ .gapWait) (s : State) (m : Nat) :
    (Pos.inEvent p m).gapAfter s.cfg s.countGap.gapCnt s.csN =
      (Pos.inEvent p (m + 1)).gapAfter s.cfg s.gapCnt s.csN := by
  have hleft := cyclesLeft_hold hne s.cfg s.gapCnt s.countGap.gapCnt m
  cases p with
  | gapWait => exact absurd rfl hne
  | csHold => rfl
  | bitSetup b => exact gapOn_countGap hleft
  | bitLow b => exact gapOn_countGap hleft
  | bitHigh b => exact gapOn_countGap hleft
  | csSelected => exact gapOn_countGap hleft
  | csReleased => exact gapOn_countGap hleft

/-- A cycle that is not the last of its latency or phase only counts. -/
theorem onCourse_hold {pos' : Pos} (hc : Carries t s) (hp : InProgress t R s r pos es)
    (hlevels : posOk s.cfg s.lines pos') (hstall : ∀ m, pos' ≠ .inEvent .gapWait m)
    (hunseen : pos'.unseen = pos.unseen) (hafter : csAfter s.csN pos' = csAfter s.csN pos)
    (hn : n = State.cyclesToResponse { s.countGap with eng := .exec ⟨pos', es, commitOf t⟩ } pos' es) :
    OnCourse t R n { s.countGap with eng := .exec ⟨pos', es, commitOf t⟩ } r := by
  obtain ⟨-, -, -, hframed, hl, hr⟩ := hp
  rw [← hunseen] at hl hr
  exact .inProgress { hc.countGap with }
    ⟨rfl, hlevels, fun m h => absurd h (hstall m), (congrArg (wellFramed · es) hafter).trans hframed, hl, hr⟩ hn

/-- One cycle of a command in progress is one cycle less to the response, seen by the receiver. -/
theorem onCourse_advance (hc : Carries t s) (hp : InProgress t R s r pos es)
    (htime : s.cyclesToResponse pos es = n + 1) :
    OnCourse t R n (s.countGap.advance ⟨pos, es, commitOf t⟩)
      (r.see s.lines (s.countGap.advance ⟨pos, es, commitOf t⟩).lines) := by
  match pos with
  | .latency 0 => exact onCourse_of_last_cycle hc hp hp.levels rfl rfl htime rfl
  | .latency (m + 1) =>
    exact .of_see (r.see_of_no_edge rfl rfl) (onCourse_hold hc hp hp.levels nofun rfl rfl
      (cyclesToResponse_next htime rfl rfl rfl rfl (gapOn_countGap rfl)))
  | .inEvent p 0 => exact onCourse_endPhase hc hp htime
  | .inEvent p (m + 1) =>
    obtain ⟨hlevels, hne⟩ := phaseOk_of_succ hp.levels
    refine .of_see (r.see_of_no_edge rfl rfl) (onCourse_hold hc hp hlevels ?_ (unseen_inEvent p _ _)
      (csAfter_inEvent _ p _ _) ?_)
    · exact fun _ h => hne (Pos.inEvent.inj h).1
    · exact cyclesToResponse_next htime rfl rfl (cyclesLeft_hold hne _ _ _ _) (csAfter_inEvent _ p _ _)
        (gapAfter_hold hne s m)

/-! ## Acceptance, and the run to the response -/

theorem commandDuration_eq (s t : State) :
    commandDuration s t = 1 + latencyOf s.cfg t.rsp +
      eventsDuration s.cfg (gapOn s.cfg s.gapCnt s.csN (1 + latencyOf s.cfg t.rsp)) s.csN t.emitted := by
  simp only [commandDuration, gapOn, Nat.add_assoc]

/-- Right after the edge that accepts a word with outcome `t`, the command is on its course (R103, R105). -/
theorem onCourse_begin {c : Word64} (h : Between t R { s.countGap with cmd := c, emitted := t.emitted } r t.emitted)
    (htime : commandDuration s t = n + 1) :
    OnCourse t R n (State.begin c t s) (r.see s.lines (State.begin c t s).lines) := by
  rw [commandDuration_eq] at htime
  unfold State.begin
  cases hlat : latencyOf s.cfg t.rsp with
  | zero =>
    rw [hlat] at htime
    obtain rfl : n = eventsDuration s.cfg s.countGap.gapCnt s.csN t.emitted :=
      Nat.succ.inj (htime.symm.trans (Nat.add_comm 1 _))
    exact onCourse_nextEvent h
  | succ m =>
    rw [hlat, ← gapOn_countGap (Nat.add_comm _ _)] at htime
    obtain ⟨hc, hclk, hframed, hl, hr⟩ := h
    refine .of_see (r.see_of_no_edge rfl rfl)
      (.inProgress (pos := .latency m) (es := t.emitted) { hc with } ?_ ?_)
    · exact ⟨rfl, hclk, nofun, hframed, by rw [Lines.clockHigh_of_sclk hclk]; exact hl, hr⟩
    · show n = m + 1 + eventsDuration s.cfg (gapOn s.cfg s.countGap.gapCnt s.csN (m + 1)) s.csN t.emitted
      omega

/-- A word's outcome is what its events, from the accepting cycle on, lead to (R15). -/
theorem between_of_outcome {c c' : Word64} {st : Status} {res : Word40} {sel : RegSet} {ini : Bool} (hinv : Inv s)
    (hacc : Accepts s c) (ht : t = outcomeState c' st res es sel ini s) (hok : OutcomeOk s c' st es sel ini)
    (hcmd : t.cmd = c) :
    Between t (t.emitted.foldl Receiver.event r) { s.countGap with cmd := c, emitted := t.emitted } r t.emitted := by
  subst ht
  exact {
    carries := { beenReset := hinv.beenReset, legal := hinv.legal, cfg := by simp [outcomeState], cmd := hcmd.symm,
                 emitted := rfl, gapLe := countGap_le s, gapLow := countGap_of_low s }
    clock := hinv.clockHigh (.inl hacc.idle)
    framed := hok.framed
    lines := (foldl_perform_lines (s.accept c') es).symm
    seen := rfl }

/-- A command on its course is in EXEC until the response, and each cycle brings it one nearer. -/
theorem OnCourse.step (h : OnCourse t R (n + 1) s r) (hr : s.input.rst = false) :
    (∃ j, s.eng = .exec j) ∧ ∃ u, step s = .next u ∧ OnCourse t R n u (r.see s.lines u.lines) := by
  cases h with
  | inProgress hc hp hn =>
    exact ⟨⟨_, hp.eng⟩, _, step_of_exec hp.eng hr hc.beenReset,
      (onCourse_advance hc hp hn.symm).debounceEdge_passCycle s.input⟩

theorem cyclesToResponse_pos (hp : InProgress t R s r pos es) : 0 < s.cyclesToResponse pos es := by
  refine Nat.add_pos_left ?_ _
  cases pos with
  | latency n => exact Nat.succ_pos n
  | inEvent p n =>
    cases p with
    | gapWait => exact Nat.add_pos_left (Nat.sub_pos_of_lt (hp.stalled n rfl)) _
    | bitSetup b => simp only [Pos.cyclesLeft]; omega
    | bitLow b => simp only [Pos.cyclesLeft]; omega
    | bitHigh b => exact Nat.succ_pos n
    | csSelected => exact Nat.succ_pos n
    | csHold => exact Nat.succ_pos (n + 1)
    | csReleased => exact Nat.succ_pos n

/-- Without reset a command on its course runs in EXEC to its response. -/
theorem OnCourse.run (h : OnCourse t R n s r) (hnr : NoReset n s) :
    (∀ m, m < n → ∃ u, runCycles m s = .next u ∧ ∃ j, u.eng = .exec j) ∧
      ∃ u, watch n s r = some (u, R) ∧ Carries t u ∧ Answered t u := by
  induction n generalizing s r with
  | zero =>
    refine ⟨fun m hm => absurd hm (Nat.not_lt_zero m), ?_⟩
    cases h with
    | answered hc ha => exact ⟨s, rfl, hc, ha⟩
    | inProgress hc hp hn => exact absurd hn (cyclesToResponse_pos hp).ne
  | succ n ih =>
    obtain ⟨hexec, u, hs, hu⟩ := h.step hnr.head
    obtain ⟨hbusy, hdone⟩ := ih hu (hnr.tail hs)
    refine ⟨fun m hm => ?_, by rwa [watch_succ hs]⟩
    cases m with
    | zero => exact ⟨s, rfl, hexec⟩
    | succ m => rw [runCycles_succ hs]; exact hbusy m (Nat.lt_of_succ_lt_succ hm)

end

/-- Settles O46: acceptance puts the command on its course, `commandDuration - 1` cycles before the response, and from there it runs to
its response. -/
theorem cycleLevelAgreesWithTransactionLevel : Obligations.CycleLevelAgreesWithTransactionLevel := by
  intro s c r hinv hacc
  obtain ⟨c', st, res, es, sel, ini, hperform, hok, -⟩ := performWord_outcome c s
  generalize ht : outcomeState c' st res es sel ini s = t at hperform
  refine ⟨t, hperform, fun hnr => ?_⟩
  have hbegin := between_of_outcome (r := r) hinv hacc ht.symm hok (performWord_cmd hperform)
  have hstep := step_of_accepts hacc hperform
  obtain ⟨n, hn⟩ : ∃ n, commandDuration s t = n + 1 :=
    Nat.exists_eq_succ_of_ne_zero (by rw [commandDuration_eq]; omega)
  rw [hn] at hnr ⊢
  obtain ⟨hbusy, u, hwatch, hc, ha⟩ :=
    ((onCourse_begin hbegin hn).debounceEdge_passCycle s.input).run (hnr.tail hstep)
  refine ⟨fun m hpos hm => ?_, u, (watch_succ hstep n r).trans hwatch, ha.eng, hc.cmd, ha.rsp, ha.sel, ha.inited,
    congrArg Lines.csN ha.lines, congrArg Lines.sclk ha.lines, congrArg Lines.sdata ha.lines, hc.emitted, hc.cfg⟩
  obtain ⟨m, rfl⟩ := Nat.exists_eq_succ_of_ne_zero hpos.ne'
  rw [runCycles_succ hstep]
  exact hbusy m (Nat.lt_of_succ_lt_succ hm)

end Sys2Proof.Machine
end

section
/-! PROOFS. The configuration, and what a command in progress can do at one clock edge, said once: the command goes on or it
completes (R237). -/

namespace Sys2Proof.Machine

/-! ## The configuration and the reset values -/

/-- Settles O47: the rows of R32 are the fields of `State.resetWith`. -/
theorem resetStateHasTheResetValues : Obligations.ResetStateHasTheResetValues :=
  ⟨rfl, fun _ => ⟨rfl, rfl, rfl, rfl, rfl, rfl, rfl, rfl, rfl, rfl, rfl, rfl, rfl⟩⟩

theorem outcomeState_cfg (c : Word64) (st : Status) (r : Word40) (es : List SerialEvent) (sel : RegSet) (ini : Bool)
    (s : State) : (outcomeState c st r es sel ini s).cfg = s.cfg := by
  simp [outcomeState]

theorem performWord_cfg {c : Word64} {s t : State} (h : performWord c s = .next t) : t.cfg = s.cfg := by
  obtain ⟨c', st, r, es, sel, ini, he, -⟩ := performWord_outcome c s
  rw [he] at h
  cases h
  exact outcomeState_cfg c' st r es sel ini s

theorem step_cfg {s t : State} (h : step s = .next t) : t.cfg = s.cfg := by
  rcases step_cases s with ⟨-, e⟩ | ⟨-, -, e⟩ | ⟨-, -, u, hu, e⟩ <;> rw [e] at h <;> cases h
  · exact State.resetEdge_cfg s
  · exact State.unspecifiedEdge_cfg s
  · exact (commandEdge_keeps hu).1

/-- Settles O54: every outcome of a word has the configuration it began with, and so has every edge, reset or not. -/
theorem configurationIsNeverWritten : Obligations.ConfigurationIsNeverWritten :=
  ⟨fun _ _ _ h => performWord_cfg h, fun _ _ h => step_cfg h⟩

/-! ## A step after the first reset -/

/-- With `rst` = 0 a block that has been reset makes the edge of its two engines (R305, R342). -/
theorem step_of_noReset {s : State} (hb : s.beenReset = true) (hr : s.input.rst = false) :
    ∃ u, s.commandEdge s.input = .next u ∧ step s = .next (u.debounceEdge s.input).passCycle := by
  rcases step_cases s with ⟨hr', -⟩ | ⟨-, hb', -⟩ | ⟨-, -, h⟩
  · exact absurd (hr.symm.trans hr') nofun
  · exact absurd (hb.symm.trans hb') nofun
  · exact h

/-- A step of a block that has been reset, taken apart: another reset, or the edge of its two engines. -/
theorem step_next_cases {s t : State} (hb : s.beenReset = true) (h : step s = .next t) :
    (s.input.rst = true ∧ t = s.resetEdge.passCycle) ∨
      (s.input.rst = false ∧ ∃ u, s.commandEdge s.input = .next u ∧ t = (u.debounceEdge s.input).passCycle) := by
  rcases step_cases s with ⟨hr, e⟩ | ⟨-, hb', -⟩ | ⟨hr, -, u, hu, e⟩
  · exact .inl ⟨hr, Host.Outcome.next.inj (h.symm.trans e)⟩
  · exact absurd (hb.symm.trans hb') nofun
  · exact .inr ⟨hr, u, hu, Host.Outcome.next.inj (h.symm.trans e)⟩

/-! ## A command goes on or completes -/

/-- From `s` to `u` a command that will write `k` goes on: it is in EXEC, and nothing of what completion writes has been written. -/
structure GoesOn (k : Commit) (s u : State) : Prop where
  exec : ∃ j, u.eng = .exec j ∧ j.commit = k
  cmd : u.cmd = s.cmd
  rsp : u.rsp = s.rsp
  sel : u.sel = s.sel
  inited : u.inited = s.inited

/-- A command that has begun goes on or is complete (R105, R237; log entry 6). -/
theorem startAfter_goesOn_or_completes (lat : Nat) (es : List SerialEvent) (k : Commit) (s : State) :
    GoesOn k s (s.startAfter lat es k) ∨ s.startAfter lat es k = s.complete k := by
  rcases startAfter_cases lat es k s with ⟨j, h, hj⟩ | ⟨-, h⟩
  · exact .inl ⟨⟨j, by rw [h], hj⟩, by rw [h], by rw [h], by rw [h], by rw [h]⟩
  · exact .inr h

/-- The end of an event begins the next one or, after the last one, completes the command (R237). -/
theorem nextEvent_goesOn_or_completes (es : List SerialEvent) (k : Commit) (s : State) :
    GoesOn k s (s.nextEvent es k) ∨ s.nextEvent es k = s.complete k :=
  startAfter_goesOn_or_completes 0 es k s

theorem endPhase_goesOn_or_completes (p : Phase) (es : List SerialEvent) (k : Commit) (s : State) :
    GoesOn k s (s.endPhase p es k) ∨ s.endPhase p es k = s.complete k := by
  cases p with
  | bitSetup b => exact .inl ⟨⟨_, rfl, rfl⟩, rfl, rfl, rfl, rfl⟩
  | bitLow b => exact .inl ⟨⟨_, rfl, rfl⟩, rfl, rfl, rfl, rfl⟩
  | csHold => exact .inl ⟨⟨_, rfl, rfl⟩, rfl, rfl, rfl, rfl⟩
  | gapWait => exact nextEvent_goesOn_or_completes (.csLow :: es) k s
  | bitHigh b => exact nextEvent_goesOn_or_completes es k s
  | csSelected => exact nextEvent_goesOn_or_completes es k s
  | csReleased => exact nextEvent_goesOn_or_completes es k s

theorem advance_goesOn_or_completes (j : Job) (s : State) :
    GoesOn j.commit s (s.advance j) ∨ s.advance j = s.complete j.commit := by
  obtain ⟨pos, es, k⟩ := j
  match pos with
  | .latency 0 => exact nextEvent_goesOn_or_completes es k s
  | .latency (n + 1) => exact .inl ⟨⟨⟨.latency n, es, k⟩, rfl, rfl⟩, rfl, rfl, rfl, rfl⟩
  | .inEvent p 0 => exact endPhase_goesOn_or_completes p es k s
  | .inEvent p (n + 1) => exact .inl ⟨⟨⟨.inEvent p n, es, k⟩, rfl, rfl⟩, rfl, rfl, rfl, rfl⟩

/-! ## The handshake of the host port -/

/-- Whether a command goes on or completes, it is still outstanding, and CMD is as it was. -/
theorem outstanding_of_goesOn_or_completes {k : Commit} {s u : State} (h : GoesOn k s u ∨ u = s.complete k) :
    u.cmd = s.cmd ∧ u.eng ≠ .idle := by
  rcases h with h | rfl
  · obtain ⟨j, he, -⟩ := h.exec
    exact ⟨h.cmd, by rw [he]; exact nofun⟩
  · exact ⟨rfl, nofun⟩

/-- A command in progress stays in EXEC or answers, and CMD is as it was. -/
theorem advance_outstanding (j : Job) (s : State) : (s.advance j).cmd = s.cmd ∧ (s.advance j).eng ≠ .idle :=
  outstanding_of_goesOn_or_completes (advance_goesOn_or_completes j s)

/-- In the middle of the edge that accepts word `c`: GAP_CNT counted on, CMD and the event list written, nothing begun (R103). -/
def State.accepting (c : Word64) (es : List SerialEvent) (s : State) : State :=
  { s.countGap with cmd := c, emitted := es }

theorem begin_eq_startAfter (c : Word64) (t s : State) : State.begin c t s =
    (s.accepting c t.emitted).startAfter (latencyOf s.cfg t.rsp) t.emitted (commitOf t) := rfl

/-- Acceptance writes CMD and leaves IDLE (R103). -/
theorem begin_outstanding (c : Word64) (t s : State) :
    (State.begin c t s).cmd = c ∧ (State.begin c t s).eng ≠ .idle := by
  rw [begin_eq_startAfter]
  exact outstanding_of_goesOn_or_completes (startAfter_goesOn_or_completes _ t.emitted (commitOf t) _)

theorem cmdReady_iff {s : State} (hb : s.beenReset = true) {p : PortIn} (hr : p.rst = false) :
    s.cmdReady p = true ↔ s.eng = .idle := by
  simp [State.cmdReady, State.outputs, hb, hr]

theorem rspValid_iff {s : State} (hb : s.beenReset = true) {p : PortIn} (hr : p.rst = false) :
    s.rspValid p = true ↔ s.eng = .resp := by
  simp [State.rspValid, State.outputs, hb, hr]

/-- Settles O55: the two handshake outputs read ENG, and each state of ENG with the level of its handshake input has one edge. -/
theorem portHandshake : Obligations.PortHandshake := by
  intro s hb hr
  rcases commandEdge_cases s.input s with ⟨he, hv, hu⟩ | ⟨he, hv, t, -, hu⟩ | ⟨j, he, hu⟩ | ⟨he, hv, hu⟩ | ⟨he, hv, hu⟩
  all_goals
    refine ⟨_, step_of_commandEdge hr hb hu, cmdReady_iff hb hr, rspValid_iff hb hr, ?_⟩
    simp only [State.passCycle_cmd, State.passCycle_eng, State.debounceEdge_cmd, State.debounceEdge_eng]
  · simp [he, hv]
  · simp [he, hv, begin_outstanding]
  · simp [he, advance_outstanding]
  · simp [he, hv]
  · simp [he, hv]

end Sys2Proof.Machine
end

section
/-! PROOFS. The invariant under one clock edge, and what moves INITED and GAP_CNT there. `Ready s es k` says what the middle of an edge
has where the events `es` are to come and then completion writes `k`; from there the next event begins, or the command completes, in
a state that meets the invariant. -/

namespace Sys2Proof.Machine

/-- The clauses of the invariant that hold whatever the command engine is doing. -/
structure Steady (s : State) : Prop where
  beenReset : s.beenReset = true
  legal : s.cfg.Legal
  sync : s.sync.length = s.cfg.syncStages
  gapLe : s.gapCnt ≤ s.cfg.tGap
  gapLow : s.csN = false → s.gapCnt = 0
  released : s.pub = false → s.acc.toNat ≤ s.cfg.thHi
  asserted : s.pub = true → s.cfg.thLo ≤ s.acc.toNat
  form : RspForm s.rsp

/-- What completion may write for the word `c` where SEL and INITED are `sel` and `ini` (R91, R199, R35). -/
structure CommitOk (c : Word64) (sel : RegSet) (ini : Bool) (k : Commit) : Prop where
  form : RspForm k.rsp
  op : rspOp k.rsp = cmdOp c
  sel : k.sel ≠ sel → rspStatus k.rsp = 0#4 ∧ (cmdOp c = 5#4 ∨ cmdOp c = 6#4 ∨ cmdOp c = 7#4)
  inited : k.inited ≠ ini → rspStatus k.rsp = 0#4 ∧ cmdOp c = 7#4 ∧ k.inited = true

/-- In the middle of an edge the events `es` are to come back to back, and then completion writes `k`. -/
structure Ready (s : State) (es : List SerialEvent) (k : Commit) : Prop where
  steady : Steady s
  clock : s.sclk = true
  framed : wellFramed s.csN es = true
  commit : CommitOk s.cmd s.sel s.inited k

theorem Inv.steady {s : State} (h : Inv s) : Steady s := { h with }

theorem JobInv.commitOk {s : State} {j : Job} (h : JobInv s j) : CommitOk s.cmd s.sel s.inited j.commit := { h with }

theorem Steady.countGap {s : State} (h : Steady s) : Steady s.countGap :=
  { h with gapLe := countGap_le s, gapLow := countGap_of_low s }

/-- Outside EXEC the invariant asks for SCLK high and, in RESP, an answer to CMD (R38). -/
theorem Steady.inv_of_not_exec {s : State} (h : Steady s) (he : ∀ j, s.eng ≠ .exec j) (hclk : s.sclk = true)
    (ha : s.eng = .resp → rspOp s.rsp = cmdOp s.cmd) : Inv s :=
  { h with answers := ha, clockHigh := fun _ => hclk, job := fun j hj => absurd hj (he j) }

/-- In EXEC it asks for a job in order (R41). -/
theorem Steady.inv_of_exec {s : State} {pos : Pos} {es : List SerialEvent} {k : Commit} (h : Steady s)
    (he : s.eng = .exec ⟨pos, es, k⟩) (hpos : posOk s.cfg s.lines pos)
    (hframed : wellFramed (csAfter s.csN pos) es = true) (hk : CommitOk s.cmd s.sel s.inited k) : Inv s :=
  { h with
    answers := fun hr => by rw [he] at hr; cases hr
    clockHigh := fun hr => by rw [he] at hr; exact hr.elim nofun nofun
    job := fun j hj => by
      rw [he] at hj
      cases hj
      exact { hk with pos := hpos, framed := hframed } }

section

variable {s : State} {es : List SerialEvent} {k : Commit}

/-! ## One edge of a command in progress -/

theorem inv_complete (h : Steady s) (hclk : s.sclk = true) (hk : CommitOk s.cmd s.sel s.inited k) :
    Inv (s.complete k) :=
  Steady.inv_of_not_exec { h with form := hk.form } nofun hclk fun _ => hk.op

/-- `CSLow`: CS_N is low for its first cycle, or high for another cycle of the stall (R234). -/
theorem inv_lowerCs (h : Ready s (.csLow :: es) k) : Inv (s.lowerCs es k) := by
  obtain ⟨hs, hclk, hframed, hk⟩ := h
  simp only [wellFramed, Bool.and_eq_true] at hframed
  obtain ⟨hcs, hframed⟩ := hframed
  have hcss := hs.legal.tCss_pos
  unfold State.lowerCs
  split
  · exact Steady.inv_of_exec { hs with gapLe := Nat.zero_le _, gapLow := fun _ => rfl } rfl
      ⟨hclk, rfl, Nat.sub_lt hcss one_pos⟩ hframed hk
  · exact Steady.inv_of_exec { hs with } rfl ⟨hclk, hcs, rfl⟩ hframed hk

/-- The next event begins at the levels of its first phase, or the command completes (R233-R235, R237). -/
theorem inv_nextEvent (h : Ready s es k) : Inv (s.nextEvent es k) := by
  match es with
  | [] => exact inv_complete h.steady h.clock h.commit
  | .csLow :: es => exact inv_lowerCs h
  | .csHigh :: es =>
    obtain ⟨hs, hclk, hframed, hk⟩ := h
    simp only [wellFramed, Bool.and_eq_true, Bool.not_eq_true'] at hframed
    obtain ⟨hcs, hframed⟩ := hframed
    have hcsh := hs.legal.tCsh_pos
    exact Steady.inv_of_exec { hs with } rfl ⟨hclk, hcs, Nat.sub_lt hcsh one_pos⟩ hframed hk
  | .bit b :: es =>
    obtain ⟨hs, hclk, hframed, hk⟩ := h
    have hsu := hs.legal.tSu_pos
    exact Steady.inv_of_exec { hs with } rfl ⟨hclk, rfl, Nat.sub_lt hsu one_pos⟩ hframed hk

/-- Each phase ends at the levels of the phase that comes after it (R233-R235). -/
theorem inv_endPhase {p : Phase} (h : Steady s) (hp : phaseOk s.cfg s.lines p 0)
    (hframed : wellFramed (csAfter s.csN (.inEvent p 0)) es = true) (hk : CommitOk s.cmd s.sel s.inited k) :
    Inv (s.endPhase p es k) := by
  cases p with
  | bitHigh b => exact inv_nextEvent ⟨h, hp.1, hframed, hk⟩
  | csSelected => exact inv_nextEvent ⟨h, hp.1, hframed, hk⟩
  | csReleased => exact inv_nextEvent ⟨h, hp.1, hframed, hk⟩
  | gapWait =>
    obtain ⟨hclk, hcs, -⟩ := hp
    exact inv_lowerCs ⟨h, hclk, Bool.and_eq_true_iff.mpr ⟨hcs, hframed⟩, hk⟩
  | bitSetup b =>
    obtain ⟨-, hb, -⟩ := hp
    have hlo := h.legal.tLo_pos
    exact Steady.inv_of_exec { h with } rfl ⟨rfl, hb, Nat.sub_lt hlo one_pos⟩ hframed hk
  | bitLow b =>
    obtain ⟨-, hb, -⟩ := hp
    have hhi := h.legal.tHi_pos
    exact Steady.inv_of_exec { h with } rfl ⟨rfl, hb, Nat.sub_lt hhi one_pos⟩ hframed hk
  | csHold =>
    obtain ⟨hclk, -, -⟩ := hp
    exact Steady.inv_of_exec { h with gapLe := Nat.zero_le _, gapLow := nofun } rfl ⟨hclk, rfl, rfl⟩ hframed hk

theorem inv_advance {j : Job} (h : Steady s) (hj : JobInv s j) : Inv (s.advance j) := by
  obtain ⟨pos, es, k⟩ := j
  have hk := hj.commitOk
  obtain ⟨hpos, hframed, -, -, -, -⟩ := hj
  match pos with
  | .latency 0 => exact inv_nextEvent ⟨h, hpos, hframed, hk⟩
  | .latency (n + 1) => exact Steady.inv_of_exec (pos := .latency n) { h with } rfl hpos hframed hk
  | .inEvent p 0 => exact inv_endPhase h hpos hframed hk
  | .inEvent p (n + 1) =>
    exact Steady.inv_of_exec (pos := .inEvent p n) { h with } rfl (phaseOk_of_succ hpos).1
      ((congrArg (wellFramed · es) (csAfter_inEvent s.csN p n (n + 1))).trans hframed) hk

theorem inv_startAfter (lat : Nat) (h : Ready s es k) : Inv (s.startAfter lat es k) := by
  cases lat with
  | zero => exact inv_nextEvent h
  | succ n => exact Steady.inv_of_exec (pos := .latency n) { h.steady with } rfl h.clock h.framed h.commit

end

/-! ## One edge of the whole block -/

/-- What an outcome has completion write is in order for its word (R91, R199, R35). -/
theorem OutcomeOk.commitOk {s : State} {c c' : Word64} {st : Status} {r : Word40} {es : List SerialEvent}
    {sel : RegSet} {ini : Bool} (h : OutcomeOk s c' st es sel ini) (hop : cmdOp c' = cmdOp c) :
    CommitOk c s.sel s.inited ⟨rspWord (cmdOp c') st r, sel, ini⟩ where
  form := rspForm_rspWord _ _ _
  op := (rspOp_rspWord _ _ _).trans hop
  sel := fun hne => by rw [rspStatus_rspWord, code_eq_zero_iff, ← hop]; exact h.sel hne
  inited := fun hne => by rw [rspStatus_rspWord, code_eq_zero_iff, ← hop]; exact h.inited hne

/-- The events and the completion of an accepted word are in order. -/
theorem ready_of_performWord {c : Word64} {s t : State} (h : Inv s) (he : s.eng = .idle)
    (ht : performWord c s = .next t) :
    Ready (s.accepting c t.emitted) t.emitted (commitOf t) := by
  obtain ⟨c', st, r, es, sel, ini, hperform, hok, hop⟩ := performWord_outcome c s
  rw [hperform] at ht
  cases ht
  exact ⟨{ h.steady.countGap with }, h.clockHigh (.inl he), hok.framed, hok.commitOk hop⟩

/-- The command engine keeps the invariant (R40, R103). -/
theorem inv_commandEdge {p : PortIn} {s u : State} (h : Inv s) (hu : s.commandEdge p = .next u) : Inv u := by
  have hs := h.steady.countGap
  rcases commandEdge_cases p s with ⟨he, -, e⟩ | ⟨he, -, t, ht, e⟩ | ⟨j, he, e⟩ | ⟨he, -, e⟩ | ⟨he, -, e⟩ <;>
    rw [e] at hu <;> cases hu
  · exact hs.inv_of_not_exec (by simp [he]) (h.clockHigh (.inl he)) h.answers
  · rw [begin_eq_startAfter]
    exact inv_startAfter _ (ready_of_performWord h he ht)
  · exact inv_advance hs { h.job j he with }
  · exact Steady.inv_of_not_exec { hs with } nofun (h.clockHigh (.inr he)) nofun
  · exact hs.inv_of_not_exec (by simp [he]) (h.clockHigh (.inr he)) h.answers

/-- R274: PUB after a tick, by the updated accumulator. -/
theorem hysteresis_eq_true_iff (c : Config) (a : Nat) (pub : Bool) :
    hysteresis c a pub = true ↔ (pub = false ∧ c.thHi < a) ∨ (pub = true ∧ ¬ a < c.thLo) := by
  cases pub <;> simp [hysteresis]

theorem debTick_pub (c : Config) (acc : BitVec 8) (pub asserted : Bool) :
    (debTick c acc pub asserted).2 = hysteresis c (debTick c acc pub asserted).1.toNat pub := by
  rw [debTick_acc]
  rfl

/-- R278: a tick leaves ACC at most TH_HI with PUB = 0 and at least TH_LO with PUB = 1, whatever they were. -/
theorem debTick_bounds {c : Config} (hc : c.Legal) (acc : BitVec 8) (pub asserted : Bool) :
    ((debTick c acc pub asserted).2 = false → (debTick c acc pub asserted).1.toNat ≤ c.thHi) ∧
      ((debTick c acc pub asserted).2 = true → c.thLo ≤ (debTick c acc pub asserted).1.toNat) := by
  have hth := hc.thLo_lt
  rw [debTick_pub, ← Bool.not_eq_true, hysteresis_eq_true_iff]
  cases pub <;> simp <;> omega

/-- The debounce engine keeps the invariant: a tick keeps the bounds of R278, and SYNC its length (R43). -/
theorem inv_debounceEdge {s : State} (h : Inv s) (p : PortIn) : Inv (s.debounceEdge p) := by
  have hbounds : ((s.debounceEdge p).pub = false → (s.debounceEdge p).acc.toNat ≤ s.cfg.thHi) ∧
      ((s.debounceEdge p).pub = true → s.cfg.thLo ≤ (s.debounceEdge p).acc.toNat) := by
    simp only [State.debounceEdge_pub, State.debounceEdge_acc]
    split
    · exact debTick_bounds h.legal s.acc s.pub s.rawAsserted
    · exact ⟨h.released, h.asserted⟩
  exact {
    h with
    sync := (shiftSync_length p.rawIn s.sync).trans h.sync
    released := hbounds.1
    asserted := hbounds.2
    job := fun j hj => { h.job j hj with } }

theorem inv_passCycle {s : State} (h : Inv s) : Inv s.passCycle :=
  { h with job := fun j hj => { h.job j hj with } }

/-- Settles O51: reset gives the reset values, which meet the invariant under any legal configuration; else the command engine keeps it,
phase by phase, and then the debounce engine does. -/
theorem everyStepKeepsTheInvariant : Obligations.EveryStepKeepsTheInvariant := by
  intro s t h hstep
  rcases step_next_cases h.beenReset hstep with ⟨-, rfl⟩ | ⟨-, u, hu, rfl⟩
  · exact { inv_resetWith h.legal with job := nofun }
  · exact inv_passCycle (inv_debounceEdge (inv_commandEdge h hu) s.input)

/-! ## INITED -/

/-- At an edge of the command engine INITED stays, or the completion of a DDS.INIT answered OK sets it (R35). -/
theorem inited_of_goesOn_or_completes {k : Commit} {s u : State} (hk : CommitOk s.cmd s.sel s.inited k)
    (hu : GoesOn k s u ∨ u = s.complete k) :
    u.inited = s.inited ∨ (u.inited = true ∧ u.eng = .resp ∧ rspStatus u.rsp = 0#4 ∧ cmdOp u.cmd = 7#4) := by
  rcases hu with hu | rfl
  · exact .inl hu.inited
  · by_cases hsame : k.inited = s.inited
    · exact .inl hsame
    · obtain ⟨hst, hop, hset⟩ := hk.inited hsame
      exact .inr ⟨hset, rfl, hst, hop⟩

theorem commandEdge_inited {p : PortIn} {s u : State} (h : Inv s) (hu : s.commandEdge p = .next u) :
    u.inited = s.inited ∨ (u.inited = true ∧ u.eng = .resp ∧ rspStatus u.rsp = 0#4 ∧ cmdOp u.cmd = 7#4) := by
  rcases commandEdge_cases p s with ⟨-, -, e⟩ | ⟨he, -, t, ht, e⟩ | ⟨j, he, e⟩ | ⟨-, -, e⟩ | ⟨-, -, e⟩ <;>
    rw [e] at hu <;> cases hu
  · exact .inl rfl
  · exact inited_of_goesOn_or_completes (s := s.accepting p.cmdData t.emitted) (ready_of_performWord h he ht).commit
      (startAfter_goesOn_or_completes _ _ _ _)
  · exact inited_of_goesOn_or_completes (s := s.countGap) (h.job j he).commitOk
      (advance_goesOn_or_completes j s.countGap)
  · exact .inl rfl
  · exact .inl rfl

/-- Settles O53: reset apart, INITED moves only where a command completes, and then the completion is that of a DDS.INIT. -/
theorem initedIsClearedOnlyByReset : Obligations.InitedIsClearedOnlyByReset := by
  intro s t h hstep
  rcases step_next_cases h.beenReset hstep with ⟨hr, rfl⟩ | ⟨-, u, hu, rfl⟩
  · exact ⟨fun _ _ => hr, fun _ hset => nomatch hset⟩
  · rcases commandEdge_inited h hu with hsame | ⟨hset, hdone⟩
    · exact ⟨fun hs hclear => absurd (hs.symm.trans (hsame.symm.trans hclear)) nofun,
        fun hs hset => absurd (hs.symm.trans (hsame.symm.trans hset)) nofun⟩
    · exact ⟨fun _ hclear => absurd (hset.symm.trans hclear) nofun, fun _ _ => hdone⟩

/-! ## GAP_CNT -/

/-- How CS_N and GAP_CNT move in state `u` from level `cs` and a count `gap` with the bound `full`: they stay, CS_N falls with the count
full, or it rises (R234, R236). -/
inductive GapMove (full : Nat) (cs : Bool) (gap : Nat) (u : State) : Prop
  | still (hcs : u.csN = cs) (hgap : u.gapCnt = gap)
  | fall (hfull : gap = full) (hcs : u.csN = false) (hgap : u.gapCnt = 0)
  | rise (hlow : cs = false) (hcs : u.csN = true) (hgap : u.gapCnt = 0)

/-- How they move from state `s` to `u`. -/
abbrev GapStep (s u : State) : Prop := GapMove s.cfg.tGap s.csN s.gapCnt u

theorem gapStep_lowerCs (s : State) (es : List SerialEvent) (k : Commit) : GapStep s (s.lowerCs es k) := by
  unfold State.lowerCs
  split
  case isTrue hfull => exact .fall hfull rfl rfl
  case isFalse => exact .still rfl rfl

theorem gapStep_nextEvent (s : State) (es : List SerialEvent) (k : Commit) : GapStep s (s.nextEvent es k) := by
  match es with
  | [] => exact .still rfl rfl
  | .csLow :: es => exact gapStep_lowerCs s es k
  | .csHigh :: es => exact .still rfl rfl
  | .bit b :: es => exact .still rfl rfl

theorem gapStep_endPhase {s : State} {p : Phase} (h : phaseOk s.cfg s.lines p 0) (es : List SerialEvent)
    (k : Commit) : GapStep s (s.endPhase p es k) := by
  cases p with
  | bitSetup b => exact .still rfl rfl
  | bitLow b => exact .still rfl rfl
  | bitHigh b => exact gapStep_nextEvent s es k
  | gapWait => exact gapStep_lowerCs s es k
  | csSelected => exact gapStep_nextEvent s es k
  | csReleased => exact gapStep_nextEvent s es k
  | csHold =>
    obtain ⟨-, hlow, -⟩ := h
    exact .rise hlow rfl rfl

theorem gapStep_advance {s : State} {j : Job} (h : posOk s.cfg s.lines j.pos) : GapStep s (s.advance j) := by
  obtain ⟨pos, es, k⟩ := j
  match pos with
  | .latency 0 => exact gapStep_nextEvent s es k
  | .latency (n + 1) => exact .still rfl rfl
  | .inEvent p 0 => exact gapStep_endPhase h es k
  | .inEvent p (n + 1) => exact .still rfl rfl

theorem gapStep_startAfter (s : State) (lat : Nat) (es : List SerialEvent) (k : Commit) :
    GapStep s (s.startAfter lat es k) := by
  cases lat with
  | zero => exact gapStep_nextEvent s es k
  | succ n => exact .still rfl rfl

/-- An edge of the command engine counts GAP_CNT on, and then CS_N may move. -/
theorem gapStep_commandEdge {p : PortIn} {s u : State} (h : Inv s) (hu : s.commandEdge p = .next u) :
    GapStep s.countGap u := by
  rcases commandEdge_cases p s with ⟨-, -, e⟩ | ⟨-, -, t, -, e⟩ | ⟨j, he, e⟩ | ⟨-, -, e⟩ | ⟨-, -, e⟩ <;>
    rw [e] at hu <;> cases hu
  · exact .still rfl rfl
  · rw [begin_eq_startAfter]
    exact gapStep_startAfter (s.accepting p.cmdData t.emitted) _ _ _
  · exact gapStep_advance (h.job j he).pos
  · exact .still rfl rfl
  · exact .still rfl rfl

/-- Settles O34: the edge counts GAP_CNT on, and then CS_N stays, falls where the count is T_GAP, or rises. -/
theorem gapCounterCountsHighCycles : Obligations.GapCounterCountsHighCycles := by
  intro s h hr
  obtain ⟨u, hu, hstep⟩ := step_of_noReset h.beenReset hr
  refine ⟨_, hstep, ?_⟩
  simp only [State.passCycle_csN, State.passCycle_gapCnt, State.debounceEdge_csN, State.debounceEdge_gapCnt]
  cases gapStep_commandEdge h hu with
  | still hcs hgap =>
    rw [hcs, hgap, State.countGap_gapCnt, State.countGap_csN]
    exact ⟨fun hs _ => if_pos hs, countGap_of_low s, fun hs hlow => absurd (hs.symm.trans hlow) nofun⟩
  | fall hfull hcs hgap =>
    refine ⟨fun _ ht => absurd (hcs.symm.trans ht) nofun, fun _ => hgap, fun hs _ => ⟨?_, hgap⟩⟩
    rw [← show s.countGap.gapCnt = s.cfg.tGap from hfull, State.countGap_gapCnt, if_pos hs]
    exact Nat.min_le_right _ _
  | rise hlow hcs hgap =>
    exact ⟨fun hs => absurd (hlow.symm.trans hs) nofun, fun _ => hgap, fun hs => absurd (hlow.symm.trans hs) nofun⟩

end Sys2Proof.Machine
end

section
/-! PROOFS. The two states of the DDS protocol (42_dds_protocol.md R192): what a frequency change does to SEL and INITED. -/

namespace Sys2Proof.Machine

open Sys2Proof.Claims

theorem protocol_eq_setA_iff (s : State) : s.protocol = some .setAActive ↔ s.inited = true ∧ s.sel = .set1 := by
  cases hi : s.inited <;> cases hs : s.sel <;> simp [State.protocol, hi, hs]

theorem protocol_eq_setB_iff (s : State) : s.protocol = some .setBActive ↔ s.inited = true ∧ s.sel = .set0 := by
  cases hi : s.inited <;> cases hs : s.sel <;> simp [State.protocol, hi, hs]

theorem protocol_eq_none_iff (s : State) : s.protocol = none ↔ s.inited = false := by
  cases hi : s.inited <;> cases hs : s.sel <;> simp [State.protocol, hi, hs]

@[simp] theorem State.ddsUpdate_sel (s : State) (tw : Nat) : (s.ddsUpdate tw).sel = s.sel.other := rfl

@[simp] theorem State.ddsUpdate_inited (s : State) (tw : Nat) : (s.ddsUpdate tw).inited = s.inited :=
  State.emit_inited s _

/-- R163: up to 33,554,431 Hz an integer frequency has a tuning word. -/
theorem intToTuning_of_le {f : Word32} (h : f.toNat ≤ 33554431) (ratio : Word32) :
    intToTuning ratio f = some (fracToTuning ratio (f <<< 7)) :=
  if_neg fun habove => absurd ((aboveRange_iff f).mp habove) (Nat.not_lt.mpr h)

/-- A frequency change is refused with NOINIT before the first DDS.INIT (R196, R197, R35). -/
theorem exec_change_of_not_inited {i : Instr} {tw : Nat} {s : State} (h : isChange s.cfg.ratio tw i)
    (hi : s.inited = false) : exec i s = .next ((s.accept (encode i)).raise .noinit) := by
  cases i with
  | ddsSeti f => simp [exec, execDdsSeti, intToTuning_of_le h.1, hi]
  | ddsSetf q => simp [exec, execDdsSetf, hi]
  | _ => exact h.elim

/-- After it a frequency change is performed (R193, R196, R197). -/
theorem exec_change_of_inited {i : Instr} {tw : Nat} {s : State} (h : isChange s.cfg.ratio tw i)
    (hi : s.inited = true) : ∃ tw', exec i s = .next ((s.accept (encode i)).ddsUpdate tw') := by
  cases i with
  | ddsSeti f => exact ⟨fracToTuning s.cfg.ratio (f <<< 7), by simp [exec, execDdsSeti, intToTuning_of_le h.1, hi]⟩
  | ddsSetf q => exact ⟨fracToTuning s.cfg.ratio q, by simp [exec, execDdsSetf, hi]⟩
  | _ => exact h.elim

/-- Settles O26: DDS.INIT leaves SEL at set 0 and INITED set, a performed change flips SEL alone, and a refused one leaves both. -/
theorem protocolStatesAlternate : Obligations.ProtocolStatesAlternate := by
  refine ⟨fun s => ⟨_, rfl, (protocol_eq_setB_iff _).mpr ⟨rfl, rfl⟩⟩, fun i tw s h => ?_⟩
  refine ⟨fun hA => ?_, fun hB => ?_, fun hN => ?_⟩
  · obtain ⟨hi, hs⟩ := (protocol_eq_setA_iff s).mp hA
    obtain ⟨tw', he⟩ := exec_change_of_inited h hi
    exact ⟨_, he, (protocol_eq_setB_iff _).mpr (by simp [hi, hs, RegSet.other])⟩
  · obtain ⟨hi, hs⟩ := (protocol_eq_setB_iff s).mp hB
    obtain ⟨tw', he⟩ := exec_change_of_inited h hi
    exact ⟨_, he, (protocol_eq_setA_iff _).mpr (by simp [hi, hs, RegSet.other])⟩
  · have hi := (protocol_eq_none_iff s).mp hN
    exact ⟨_, exec_change_of_not_inited h hi, (protocol_eq_none_iff _).mpr hi⟩

end Sys2Proof.Machine
end

section
/-! PROOFS. The raw-input synchroniser (10_state.md R43): a level moves one stage a cycle, so that the last stage holds `raw_in` of
SYNC_STAGES cycles before (R270, R350). -/

namespace Sys2Proof.Machine

theorem shiftSync_getElem?_zero {sync : List Bool} (h : 0 < sync.length) (raw : Bool) :
    (shiftSync raw sync)[0]? = some raw := by
  simp [shiftSync, h]

theorem shiftSync_getElem?_succ {sync : List Bool} {n : Nat} (h : n + 1 < sync.length) (raw : Bool) :
    (shiftSync raw sync)[n + 1]? = sync[n]? := by
  simp [shiftSync, h]

/-- In a cycle without reset, after the first one, the synchroniser moves. -/
theorem step_sync {s : State} (hb : s.beenReset = true) (hr : s.input.rst = false) :
    ∃ t, step s = .next t ∧ t.beenReset = true ∧ t.sync = shiftSync s.input.rawIn s.sync := by
  obtain ⟨u, hu, hstep⟩ := step_of_noReset hb hr
  obtain ⟨-, -, -, hsync, hbu⟩ := commandEdge_keeps hu
  exact ⟨_, hstep, hbu.trans hb, congrArg (shiftSync s.input.rawIn) hsync⟩

/-- In `k` cycles without reset the level of stage `n` reaches stage `n + k`. -/
theorem runCycles_sync {k : Nat} {s : State} {n : Nat} (hb : s.beenReset = true) (hr : NoReset k s)
    (hn : n + k < s.sync.length) :
    ∃ u, runCycles k s = .next u ∧ u.cfg = s.cfg ∧ u.sync.length = s.sync.length ∧ u.sync[n + k]? = s.sync[n]? := by
  induction k generalizing s n with
  | zero => exact ⟨s, rfl, rfl, rfl, rfl⟩
  | succ k ih =>
    obtain ⟨t, hstep, hbt, hsync⟩ := step_sync hb hr.head
    have hlen : t.sync.length = s.sync.length := by rw [hsync, shiftSync_length]
    obtain ⟨u, hrun, hcfg, hlen', hu⟩ := ih (n := n + 1) hbt (hr.tail hstep) (by omega)
    refine ⟨u, (runCycles_succ hstep k).trans hrun, hcfg.trans (step_cfg hstep), hlen'.trans hlen, ?_⟩
    rw [← Nat.add_assoc, Nat.add_right_comm, hu, hsync, shiftSync_getElem?_succ (by omega)]

/-- The sampled level is that of the last stage (R43). -/
theorem syncOut_of_getElem? {s : State} {n : Nat} {y : Bool} (hlen : s.sync.length = n + 1)
    (h : s.sync[n]? = some y) : s.syncOut = y := by
  rw [State.syncOut, List.getLast?_eq_getElem?, hlen, Nat.add_sub_cancel, h, Option.getD_some]

/-- Settles O39: this cycle's `raw_in` is in stage 0 after one cycle and in the last stage SYNC_STAGES - 1 cycles later; a level that
every stage holds is in the last one until as many cycles are over. -/
theorem rawInputIsSeenAfterTheSynchroniser : Obligations.RawInputIsSeenAfterTheSynchroniser := by
  refine ⟨fun s h hr => ?_, fun s m h hsync hm hr => ?_⟩
  · obtain ⟨n, hn⟩ : ∃ n, s.cfg.syncStages = n + 1 := Nat.exists_eq_add_of_le' h.legal.sync_pos
    have hlen := h.sync
    rw [hn] at hr hlen ⊢
    obtain ⟨t, hstep, hbt, ht⟩ := step_sync h.beenReset hr.head
    have hlen' : t.sync.length = n + 1 := by rw [ht, shiftSync_length, hlen]
    obtain ⟨u, hrun, -, hlenu, hu⟩ := runCycles_sync (n := 0) hbt (hr.tail hstep) (by omega)
    rw [Nat.zero_add, ht, shiftSync_getElem?_zero (by omega)] at hu
    refine ⟨u, (runCycles_succ hstep n).trans hrun, ?_⟩
    rw [inputAt_zero]
    exact syncOut_of_getElem? (hlenu.trans hlen') hu
  · have hlen := h.sync
    obtain ⟨n, hn⟩ : ∃ n, s.cfg.syncStages = m + n + 1 := Nat.exists_eq_add_of_lt hm
    obtain ⟨u, hrun, hcfg, hlenu, hu⟩ := runCycles_sync (n := n) h.beenReset hr (by omega)
    rw [hsync, List.getElem?_replicate_of_lt (by omega)] at hu
    refine ⟨u, hrun, ?_⟩
    rw [State.rawAsserted, syncOut_of_getElem? (by omega) hu, hcfg]
    cases h : s.cfg.rawActiveHigh <;> simp [releasedLevel, h]

end Sys2Proof.Machine
end

section
/-! PROOFS. What the command engine sees (10_state.md R44, R305). `State.commandView` is a state with all of the debounce engine but PUB,
and the environment, written over; each operation of the command engine gives the same on the view. -/

namespace Sys2Proof.Machine

open Sys2Proof.Claims

/-- The state as the command engine sees it: ACC, SYNC and what lies outside the block are one and the same value whatever they are. -/
def State.commandView (s : State) : State :=
  { s with acc := 0#8, sync := [], inputs := [], clock := 0, beenReset := true }

/-- An outcome as the command engine sees it. -/
def viewOutcome : Host.Outcome State Fault Refusal → Host.Outcome State Fault Refusal
  | .next t => .next t.commandView
  | .fault r => .fault r
  | .refused r => .refused r

/-! ## The view is the command side and PUB -/

theorem sameCommand_refl (s : State) : SameCommand s s := ⟨rfl, rfl, rfl, rfl, rfl, rfl, rfl, rfl, rfl, rfl, rfl⟩

theorem sameCommand_of_view {s s' : State} (h : s.commandView = s'.commandView) : SameCommand s s' := by
  show SameCommand s.commandView s'.commandView
  rw [h]
  exact sameCommand_refl _

theorem view_eq_of_sameCommand {s s' : State} (h : SameCommand s s') (hp : s.pub = s'.pub) :
    s.commandView = s'.commandView := by
  obtain ⟨hcfg, hsel, hini, hcs, hclk, hdata, hgap, heng, hcmd, hrsp, hem⟩ := h
  simp only [State.commandView, hcfg, hsel, hini, hcs, hclk, hdata, hgap, heng, hcmd, hrsp, hem, hp]

/-! ## Commands -/

variable (s : State)

@[simp] theorem commandView_cfg : s.commandView.cfg = s.cfg := rfl
@[simp] theorem commandView_inited : s.commandView.inited = s.inited := rfl
@[simp] theorem commandView_csN : s.commandView.csN = s.csN := rfl
@[simp] theorem commandView_eng : s.commandView.eng = s.eng := rfl

theorem accept_view (c : Word64) : s.commandView.accept c = (s.accept c).commandView := rfl

theorem respond_view (st : Status) (r : Word40) : s.commandView.respond st r = (s.respond st r).commandView := rfl

theorem foldl_perform_view (es : List SerialEvent) :
    es.foldl State.perform s.commandView = (es.foldl State.perform s).commandView := by
  induction es generalizing s with
  | nil => rfl
  | cons e es ih => rw [List.foldl_cons, List.foldl_cons, ← ih]; cases e <;> rfl

theorem emit_view (es : List SerialEvent) : s.commandView.emit es = (s.emit es).commandView := by
  rw [State.emit, foldl_perform_view]
  rfl

theorem ddsUpdate_view (tw : Nat) : s.commandView.ddsUpdate tw = (s.ddsUpdate tw).commandView := by
  simp only [State.ddsUpdate, State.emitFrame, emit_view]
  rfl

/-- Every command does the same on the view: of the debounce engine none reads more than PUB (R275, R279). -/
theorem exec_view (i : Instr) : exec i s.commandView = viewOutcome (exec i s) := by
  cases i with
  | bcdEnc8 v => rfl
  | bcdEnc10 v => rfl
  | bcdDec8 d => simp only [exec, execBcdDec8]; split <;> rfl
  | bcdDec10 d =>
    simp only [exec, execBcdDec10]
    split
    · split <;> rfl
    · rfl
  | tuneInt f =>
    simp only [exec, execTuneInt, accept_view, commandView_cfg]
    split <;> rfl
  | tuneFrac q => rfl
  | ddsSeti f =>
    simp only [exec, execDdsSeti, accept_view, commandView_cfg, commandView_inited, ddsUpdate_view]
    split
    · rfl
    · split <;> rfl
  | ddsSetf q =>
    simp only [exec, execDdsSetf, accept_view, commandView_cfg, commandView_inited, ddsUpdate_view]
    split <;> rfl
  | ddsInit =>
    simp only [exec, execDdsInit, accept_view, State.emitFrame, commandView_cfg, commandView_csN, emit_view]
    rfl
  | sblSend w v => simp only [exec, execSblSend, accept_view, emit_view, respond_view, viewOutcome]
  | sblCs l => simp only [exec, execSblCs, accept_view, commandView_csN, emit_view, respond_view, viewOutcome]
  | debRead => rfl

theorem performWord_view (c : Word64) : performWord c s.commandView = viewOutcome (performWord c s) := by
  unfold performWord
  split
  · exact exec_view s _
  · rfl

/-! ## The clock edge -/

variable (es : List SerialEvent) (k : Commit)

theorem lowerCs_view : s.commandView.lowerCs es k = (s.lowerCs es k).commandView := by
  rw [State.lowerCs, State.lowerCs, apply_ite State.commandView]
  rfl

theorem nextEvent_view : s.commandView.nextEvent es k = (s.nextEvent es k).commandView := by
  match es with
  | [] => rfl
  | .csLow :: es => exact lowerCs_view s es k
  | .csHigh :: es => rfl
  | .bit b :: es => rfl

theorem endPhase_view (p : Phase) : s.commandView.endPhase p es k = (s.endPhase p es k).commandView := by
  cases p with
  | bitSetup b => rfl
  | bitLow b => rfl
  | csHold => rfl
  | gapWait => exact lowerCs_view s es k
  | bitHigh b => exact nextEvent_view s es k
  | csSelected => exact nextEvent_view s es k
  | csReleased => exact nextEvent_view s es k

theorem advance_view (j : Job) : s.commandView.advance j = (s.advance j).commandView := by
  obtain ⟨pos, es, k⟩ := j
  match pos with
  | .latency 0 => exact nextEvent_view s es k
  | .latency (n + 1) => rfl
  | .inEvent p 0 => exact endPhase_view s es k p
  | .inEvent p (n + 1) => rfl

theorem startAfter_view (lat : Nat) : s.commandView.startAfter lat es k = (s.startAfter lat es k).commandView := by
  cases lat with
  | zero => exact nextEvent_view s es k
  | succ n => rfl

theorem begin_view (c : Word64) (t : State) :
    State.begin c t.commandView s.commandView = (State.begin c t s).commandView :=
  startAfter_view (s.accepting c t.emitted) t.emitted (commitOf t) (latencyOf s.cfg t.rsp)

/-- An edge of the command engine does the same on the view (R305). -/
theorem commandEdge_view (p : PortIn) : s.commandView.commandEdge p = viewOutcome (s.commandEdge p) := by
  simp only [State.commandEdge, commandView_eng, performWord_view]
  split
  · split
    · cases performWord p.cmdData s with
      | next t => exact congrArg _ (begin_view s p.cmdData t)
      | fault r => rfl
      | refused r => rfl
    · rfl
  · exact congrArg _ (advance_view s.countGap _)
  · split <;> rfl

/-- Of the ports the command engine reads the host's (R45). -/
theorem commandEdge_congr {p p' : PortIn} (hv : p.cmdValid = p'.cmdValid) (hd : p.cmdData = p'.cmdData)
    (hr : p.rspReady = p'.rspReady) : s.commandEdge p = s.commandEdge p' := by
  simp only [State.commandEdge, hv, hd, hr]

/-- Settles O58: two states with the same command side and PUB have one view, and on it the command engine's edge is the same. -/
theorem commandEngineSeesOnlyPub : Obligations.CommandEngineSeesOnlyPub := by
  intro s s' t t' hb hb' hsame hpub hrst hv hd hready hstep hstep'
  rcases step_next_cases hb hstep with ⟨hr, rfl⟩ | ⟨hr, u, hu, rfl⟩ <;>
    rcases step_next_cases hb' hstep' with ⟨hr', rfl⟩ | ⟨hr', u', hu', rfl⟩
  · exact ⟨hsame.1, rfl, rfl, rfl, rfl, rfl, rfl, rfl, rfl, rfl, rfl⟩
  · exact absurd (hr.symm.trans (hrst.trans hr')) nofun
  · exact absurd (hr.symm.trans (hrst.trans hr')) nofun
  · have hedge := commandEdge_view s s.input
    rw [view_eq_of_sameCommand hsame hpub, commandEdge_congr _ hv hd hready, commandEdge_view, hu, hu'] at hedge
    have hview : u'.commandView = u.commandView := Host.Outcome.next.inj hedge
    exact sameCommand_of_view (s := u) (s' := u') hview.symm

end Sys2Proof.Machine
end

section
/-! PROOFS. What a command leaves unchanged (10_state.md R71, R199, R275): every command writes CMD, RSP and ENG, and beside them only
what its events write, SEL and INITED; its OP says which of these it can touch. -/

namespace Sys2Proof.Machine

open Sys2Proof.Claims

variable {s t : State} {i : Instr}

/-! ## What the OP rules out -/

section OutcomeOk

variable {c : Word64} {st : Status} {es : List SerialEvent} {sel : RegSet} {ini : Bool}

theorem OutcomeOk.events_eq_nil (h : OutcomeOk s c st es sel ini) (hop : serialOp (cmdOp c) = false) : es = [] := by
  by_contra hne
  exact absurd (hop.symm.trans (h.serial hne)) nofun

theorem OutcomeOk.sel_eq (h : OutcomeOk s c st es sel ini) (hop : cmdOp c ∉ [5#4, 6#4, 7#4]) : sel = s.sel := by
  by_contra hne
  exact hop (by simpa using (h.sel hne).2)

theorem OutcomeOk.inited_eq (h : OutcomeOk s c st es sel ini) (hop : cmdOp c ≠ 7#4) : ini = s.inited := by
  by_contra hne
  exact hop (h.inited hne).2.1

end OutcomeOk

/-- The commands without events are none of those on the serial line (R71, R105). -/
theorem serialOp_of_noEvents (h : noEvents i = true) : serialOp (opOf i) = false := by
  cases i with
  | ddsSeti | ddsSetf | ddsInit | sblSend | sblCs => cases h
  | _ => rfl

/-- The DDS commands are on the serial line (R105). -/
theorem not_dds_of_serialOp {op : Nibble} (h : serialOp op = false) : op ∉ [5#4, 6#4, 7#4] := by
  revert op; decide

/-! ## The frame of a command -/

/-- Every command takes a next state that differs from the one before at most in CMD, RSP, ENG, the event list, the lines, GAP_CNT, SEL
and INITED: the debounce engine, the configuration and the environment are as before (R275, R47). -/
theorem exec_frame (h : exec i s = .next t) :
    t = { s with cmd := t.cmd, rsp := t.rsp, eng := .resp, emitted := t.emitted, csN := t.csN, sclk := t.sclk,
                 sdata := t.sdata, gapCnt := t.gapCnt, sel := t.sel, inited := t.inited } := by
  obtain ⟨st, r, es, sel, ini, he, -⟩ := exec_outcome i s
  rw [he] at h
  cases h
  simp [outcomeState]

/-- SEL moves only by a DDS command (R199). -/
theorem exec_sel (h : exec i s = .next t) (hop : opOf i ∉ [5#4, 6#4, 7#4]) : t.sel = s.sel := by
  obtain ⟨st, r, es, sel, ini, he, hok⟩ := exec_outcome i s
  rw [he] at h
  cases h
  exact hok.sel_eq (by rwa [cmdOp_encode])

/-- INITED moves only by DDS.INIT (R35). -/
theorem exec_inited (h : exec i s = .next t) (hop : opOf i ≠ 7#4) : t.inited = s.inited := by
  obtain ⟨st, r, es, sel, ini, he, hok⟩ := exec_outcome i s
  rw [he] at h
  cases h
  exact hok.inited_eq (by rwa [cmdOp_encode])

/-- Settles O43: an outcome without events, SEL and INITED as before, is an answer alone. -/
theorem commandsWithoutEventsOnlyAnswer : Obligations.CommandsWithoutEventsOnlyAnswer := by
  intro i s t hi h
  obtain ⟨st, r, es, sel, ini, he, hok⟩ := exec_outcome i s
  have hop : serialOp (cmdOp (encode i)) = false := by rw [cmdOp_encode, serialOp_of_noEvents hi]
  have hdds := not_dds_of_serialOp hop
  obtain rfl := hok.events_eq_nil hop
  obtain rfl := hok.sel_eq hdds
  obtain rfl := hok.inited_eq fun h7 => hdds (by simp [h7])
  rw [he] at h
  cases h
  exact ⟨rfl, rfl⟩

/-! ## The raw serial commands -/

/-- Bits leave CS_N and GAP_CNT alone (R231). -/
theorem foldl_perform_bits (s : State) (v : Word16) (w : Nat) :
    ((bits v w).foldl State.perform s).csN = s.csN ∧ ((bits v w).foldl State.perform s).gapCnt = s.gapCnt := by
  induction w generalizing s with
  | zero => exact ⟨rfl, rfl⟩
  | succ n ih => exact ih (s.perform (.bit (v.getLsbD n)))

/-- Edges of CS_N leave SCLK and SDATA alone (R231). -/
theorem foldl_perform_csEvents (s : State) (l csN : Bool) :
    ((csEvents l csN).foldl State.perform s).sclk = s.sclk ∧
      ((csEvents l csN).foldl State.perform s).sdata = s.sdata := by
  cases l <;> cases csN <;> exact ⟨rfl, rfl⟩

/-- SBL.SEND leaves CS_N and GAP_CNT alone (R241). -/
theorem exec_sblSend_csN_gapCnt {w : Nat} {v : Word16} (h : exec (.sblSend w v) s = .next t) :
    t.csN = s.csN ∧ t.gapCnt = s.gapCnt := by
  cases h
  exact foldl_perform_bits (s.accept _) v w

/-- SBL.CS leaves SCLK and SDATA alone (R242). -/
theorem exec_sblCs_sclk_sdata {l : Bool} (h : exec (.sblCs l) s = .next t) :
    t.sclk = s.sclk ∧ t.sdata = s.sdata := by
  cases h
  exact foldl_perform_csEvents (s.accept _) l s.csN

/-- Settles O44: the frame of every command, less what the command's OP and its kind of events rule out. -/
theorem serialCommandsLeaveTheRest : Obligations.SerialCommandsLeaveTheRest := by
  refine fun s t => ⟨fun w v h => ?_, fun l h => ?_, fun i hi h => ?_, exec_frame⟩
  · obtain ⟨hcsN, hgap⟩ := exec_sblSend_csN_gapCnt h
    have hsel : t.sel = s.sel := exec_sel h (by simp [opOf])
    have hini : t.inited = s.inited := exec_inited h (by simp [opOf])
    simpa only [hcsN, hgap, hsel, hini] using exec_frame h
  · obtain ⟨hsclk, hsdata⟩ := exec_sblCs_sclk_sdata h
    have hsel : t.sel = s.sel := exec_sel h (by simp [opOf])
    have hini : t.inited = s.inited := exec_inited h (by simp [opOf])
    simpa only [hsclk, hsdata, hsel, hini] using exec_frame h
  · have hini : t.inited = s.inited := exec_inited h (by rcases hi with ⟨f, rfl⟩ | ⟨q, rfl⟩ <;> simp [opOf])
    simpa only [hini] using exec_frame h

end Sys2Proof.Machine
end

section
/-! PROOFS. The decoder and the encoder undo each other (30_encoding.md R94, R95, R97, R100): a decoded word is a row of the opcode map
without a reserved bit, and the row that an encoding's fields name is that of its instruction. -/

namespace Sys2Proof

/-! ## What each answer of the decoder says -/

/-- A word is a command exactly if RSVD is 0 and its row has no reserved bit set (R94, R97). -/
theorem decode_eq_instr_iff {c : Word64} {i : Instr} : decode c = .instr i ↔
    cmdRsvd c = 0#16 ∧ opcodeRow (cmdOp c) (cmdAux c) (cmdDataField c) = some ⟨false, i⟩ := by
  unfold decode
  cases opcodeRow (cmdOp c) (cmdAux c) (cmdDataField c) with
  | none => simp
  | some row =>
    obtain ⟨reserved, j⟩ := row
    by_cases hrsvd : cmdRsvd c = 0#16 <;> cases reserved <;> simp [hrsvd]

/-- A word is ILLEGAL exactly if the opcode map has no row for it (R94, R98). -/
theorem decode_eq_illegal_iff {c : Word64} :
    decode c = .reject .illegal ↔ opcodeRow (cmdOp c) (cmdAux c) (cmdDataField c) = none := by
  unfold decode
  cases opcodeRow (cmdOp c) (cmdAux c) (cmdDataField c) with
  | none => simp
  | some row =>
    simp only [reduceCtorEq, iff_false]
    split <;> exact nofun

/-! ## Zero-extended operands -/

/-- The operand stands at the low end of its field (R95). -/
theorem extractLsb'_zeroExtend_low {n w : Nat} (x : BitVec n) (h : n ≤ w) :
    (x.zeroExtend w).extractLsb' 0 n = x := by
  rw [BitVec.zeroExtend, BitVec.extractLsb'_setWidth_of_le (by omega), BitVec.extractLsb'_eq_self]

/-- Above the operand its field is 0 (R97). -/
theorem extractLsb'_zeroExtend_high {n : Nat} (x : BitVec n) (m w : Nat) :
    (x.zeroExtend w).extractLsb' n m = 0 := by
  apply BitVec.eq_of_getLsbD_eq
  simp

@[simp] theorem dataLow32_zeroExtend (v : Word32) : dataLow32 (v.zeroExtend 40) = v :=
  extractLsb'_zeroExtend_low v (by decide)

@[simp] theorem highDataSet_zeroExtend (v : Word32) : highDataSet (v.zeroExtend 40) = false := by
  rw [highDataSet, extractLsb'_zeroExtend_high]
  rfl

/-! ## From the instruction to its word and back -/

theorem wf_sblSend_iff {w : Nat} {v : Word16} : (Instr.sblSend w v).wf = true ↔ 1 ≤ w ∧ w ≤ 16 := by
  simp [Instr.wf]

theorem decode_cmdWord {op aux : Nibble} {data : Word40} {i : Instr}
    (h : opcodeRow op aux data = some ⟨false, i⟩) : decode (cmdWord op aux data) = .instr i :=
  decode_eq_instr_iff.2 ⟨cmdRsvd_cmdWord op aux data, by simpa using h⟩

/-- A raw send keeps its width, which AUX holds less 1, and its 16 bits (R95). -/
theorem opcodeRow_sblSend {w : Nat} (v : Word16) (h1 : 1 ≤ w) (h16 : w ≤ 16) :
    opcodeRow 0x8#4 (BitVec.ofNat 4 (w - 1)) (v.zeroExtend 40) = some ⟨false, .sblSend w v⟩ := by
  have hw : (w - 1) % 16 + 1 = w := by omega
  simp [opcodeRow, hw, extractLsb'_zeroExtend_low, extractLsb'_zeroExtend_high]

/-- Settles O1: each instruction's fields name its own row, with no reserved bit set; a 32-bit operand leaves DATA[39:32] at 0. -/
theorem decodeOfEncodeIsTheInstruction : Obligations.DecodeOfEncodeIsTheInstruction := by
  intro i hwf
  cases i with
  | bcdDec10 d => exact decode_cmdWord rfl
  | ddsInit => exact decode_cmdWord rfl
  | debRead => exact decode_cmdWord rfl
  | sblCs l => cases l <;> exact decode_cmdWord rfl
  | sblSend w v =>
    obtain ⟨h1, h16⟩ := wf_sblSend_iff.1 hwf
    exact decode_cmdWord (opcodeRow_sblSend v h1 h16)
  | _ => exact decode_cmdWord (by simp [opcodeRow])

/-- Whatever row a word names, its instruction is well formed: four bits of AUX plus 1 are a width of 1 to 16 (R95). -/
theorem wf_of_opcodeRow {op aux : Nibble} {data : Word40} {row : Row} (h : opcodeRow op aux data = some row) :
    row.instr.wf = true := by
  have hwidth : aux.toNat < 16 := aux.isLt
  unfold opcodeRow at h
  repeat' split at h
  all_goals cases h
  all_goals simp [Instr.wf, hwidth]

/-- Settles O2: a decoded word is put together again from the fields its row was read from. -/
theorem encodeOfDecodedIsTheWord : Obligations.EncodeOfDecodedIsTheWord := by
  intro c i h
  obtain ⟨-, hrow⟩ := decode_eq_instr_iff.1 h
  exact ⟨encode_of_decode h, wf_of_opcodeRow hrow⟩

/-- Settles O4: the decoder evaluated on each of the twelve words. -/
theorem writtenOutWordsDecode : Obligations.WrittenOutWordsDecode := by
  unfold Obligations.WrittenOutWordsDecode
  decide

end Sys2Proof
end

section
/-! PROOFS. The words that decode are those of the opcode table (30_encoding.md R93, R97, R98), and every word is answered in format
RSP64 (R91). The table's masks are read field by field. -/

namespace Sys2Proof

open Sys2Proof.Machine Sys2Proof.Claims

/-! ## Masks -/

/-- Two words with the same four fields are one word (R90). -/
theorem word_ext {c c' : Word64} (hop : cmdOp c = cmdOp c') (haux : cmdAux c = cmdAux c')
    (hrsvd : cmdRsvd c = cmdRsvd c') (hdata : cmdDataField c = cmdDataField c') : c = c' := by
  rw [word_eq_fields c, word_eq_fields c', hop, haux, hrsvd, hdata]

/-- A mask cuts each field by the mask's own field. -/
theorem and_eq_iff_fields (c m w : Word64) : c &&& m = w ↔
    cmdRsvd c &&& cmdRsvd m = cmdRsvd w ∧ cmdOp c &&& cmdOp m = cmdOp w ∧ cmdAux c &&& cmdAux m = cmdAux w ∧
      cmdDataField c &&& cmdDataField m = cmdDataField w := by
  constructor
  · rintro rfl
    exact ⟨BitVec.extractLsb'_and.symm, BitVec.extractLsb'_and.symm, BitVec.extractLsb'_and.symm,
      BitVec.extractLsb'_and.symm⟩
  · rintro ⟨hrsvd, hop, haux, hdata⟩
    exact word_ext (BitVec.extractLsb'_and.trans hop) (BitVec.extractLsb'_and.trans haux)
      (BitVec.extractLsb'_and.trans hrsvd) (BitVec.extractLsb'_and.trans hdata)

/-- The mask of all bits from `n` up leaves 0 exactly where those bits are 0. -/
theorem and_high_eq_zero_iff {w : Nat} (n m : Nat) (x : BitVec w) (hw : n + m = w) :
    x &&& (BitVec.allOnes w <<< n) = 0 ↔ x.extractLsb' n m = 0 := by
  constructor
  · intro h
    apply BitVec.eq_of_getLsbD_eq
    intro i hi
    have hbit : (x &&& (BitVec.allOnes w <<< n)).getLsbD (n + i) = false := by rw [h]; exact BitVec.getLsbD_zero
    simpa [hi, show n + i < w by omega] using hbit
  · intro h
    apply BitVec.eq_of_getLsbD_eq
    intro i hi
    have hbit : (x.extractLsb' n m).getLsbD (i - n) = false := by rw [h]; exact BitVec.getLsbD_zero
    by_cases hn : i < n
    · simp [hn]
    · have him : i - n < m := by omega
      rw [BitVec.getLsbD_extractLsb', show n + (i - n) = i by omega, decide_eq_true him, Bool.true_and] at hbit
      rw [BitVec.getLsbD_and, hbit, Bool.false_and]
      exact BitVec.getLsbD_zero.symm

/-! ## The opcode table by fields -/

/-- The rows of the opcode table by OP, AUX and DATA: what each asks of the operand bits and the reserved ones (R93, R97). -/
def FitsRow (op aux : Nibble) (data : Word40) : Prop :=
  (op = 0x1#4 ∧ aux = 0#4 ∧ highDataSet data = false) ∨ (op = 0x1#4 ∧ aux = 1#4 ∧ highDataSet data = false) ∨
  (op = 0x2#4 ∧ aux = 0#4 ∧ highDataSet data = false) ∨ (op = 0x2#4 ∧ aux = 1#4) ∨
  (op = 0x3#4 ∧ aux = 0#4 ∧ highDataSet data = false) ∨ (op = 0x4#4 ∧ aux = 0#4 ∧ highDataSet data = false) ∨
  (op = 0x5#4 ∧ aux = 0#4 ∧ highDataSet data = false) ∨ (op = 0x6#4 ∧ aux = 0#4 ∧ highDataSet data = false) ∨
  (op = 0x7#4 ∧ aux = 0#4 ∧ data = 0#40) ∨ (op = 0x8#4 ∧ data.extractLsb' 16 24 = 0#24) ∨
  (op = 0x9#4 ∧ aux.extractLsb' 1 3 = 0#3 ∧ data = 0#40) ∨ (op = 0xA#4 ∧ aux = 0#4 ∧ data = 0#40)

/-- The table's twelve masked matches are the rows by fields, with RSVD = 0 in each. -/
theorem inTable_iff_fitsRow (c : Word64) :
    InTable c ↔ cmdRsvd c = 0#16 ∧ FitsRow (cmdOp c) (cmdAux c) (cmdDataField c) := by
  have hop (x : Nibble) : x &&& 0xF#4 = x := BitVec.and_allOnes
  have hbit (x : Nibble) : x &&& 0xE#4 = 0#4 ↔ x.extractLsb' 1 3 = 0#3 := and_high_eq_zero_iff 1 3 x rfl
  have hrsvd (x : BitVec 16) : x &&& 0xFFFF#16 = x := BitVec.and_allOnes
  have hdata (x : Word40) : x &&& 0xFFFFFFFFFF#40 = x := BitVec.and_allOnes
  have h32 (x : Word40) : x &&& 0xFF00000000#40 = 0#40 ↔ highDataSet x = false := by
    simpa [highDataSet] using and_high_eq_zero_iff 32 8 x rfl
  have h16 (x : Word40) : x &&& 0xFFFFFF0000#40 = 0#40 ↔ x.extractLsb' 16 24 = 0#24 :=
    and_high_eq_zero_iff 16 24 x rfl
  simp only [InTable, opcodeTable, and_eq_iff_fields, FitsRow, and_or_left]
  simp [cmdOp, cmdAux, cmdRsvd, cmdDataField, hop, hbit, hrsvd, hdata, h32, h16]

/-- The rows by fields are the rows of the opcode map without a reserved bit set. -/
theorem fitsRow_iff (op aux : Nibble) (data : Word40) :
    FitsRow op aux data ↔ ∃ i, opcodeRow op aux data = some ⟨false, i⟩ := by
  have hset : ∀ x : Nibble, x.getLsbD 0 = true → x ≠ 0#4 ∧ (x.extractLsb' 1 3 = 0#3 ↔ x = 1#4) := by decide
  have hclear : ∀ x : Nibble, ¬ x.getLsbD 0 = true → x ≠ 1#4 ∧ (x.extractLsb' 1 3 = 0#3 ↔ x = 0#4) := by decide
  unfold opcodeRow
  repeat' split
  case isTrue.isTrue h hb => simp [FitsRow, h, hset aux hb]
  case isTrue.isFalse h hb => simp [FitsRow, h, hclear aux hb]
  case isFalse.isTrue.isTrue h hb => simp [FitsRow, h, hset aux hb]
  case isFalse.isTrue.isFalse h hb => simp [FitsRow, h, hclear aux hb]
  all_goals simp [FitsRow, *]

/-! ## Commands, ILLEGAL and RSVD -/

/-- The words that decode are those of the opcode table (R93, R98). -/
theorem exists_decode_iff_inTable (c : Word64) : (∃ i, decode c = .instr i) ↔ InTable c := by
  simp only [decode_eq_instr_iff, exists_and_left, inTable_iff_fitsRow, fitsRow_iff]

/-- The opcode map has no row exactly for OP 0x0 and 0xB-0xF (R93, R98). -/
theorem opcodeRow_eq_none_iff (op aux : Nibble) (data : Word40) :
    opcodeRow op aux data = none ↔ op.toNat = 0 ∨ 11 ≤ op.toNat := by
  have hops : ∀ x : Nibble, x.toNat = 0 ∨ 11 ≤ x.toNat ↔
      x ∉ [0x1#4, 0x2#4, 0x3#4, 0x4#4, 0x5#4, 0x6#4, 0x7#4, 0x8#4, 0x9#4, 0xA#4] := by decide
  rw [hops]
  unfold opcodeRow
  repeat' split
  all_goals simp [*]

theorem decode_eq_illegal_iff_unassignedOp (c : Word64) : decode c = .reject .illegal ↔ UnassignedOp c :=
  decode_eq_illegal_iff.trans (opcodeRow_eq_none_iff _ _ _)

/-- A word that is neither a command nor ILLEGAL is RSVD, and no other one is (R94). -/
theorem decode_eq_rsvd_iff (c : Word64) : decode c = .reject .rsvd ↔ ¬ UnassignedOp c ∧ ¬ InTable c := by
  rw [← decode_eq_illegal_iff_unassignedOp, ← exists_decode_iff_inTable]
  cases decode c with
  | instr i => simp
  | reject r => cases r <;> simp

/-- A word turned away is answered with its OP, the decoder's status and RESULT 0 (R91, R94). -/
theorem performWord_of_reject {c : Word64} {x : Reject} (h : decode c = .reject x) (s : State) :
    ∃ t, performWord c s = .next t ∧ Answers t.rsp (cmdOp c).toNat (Status.ofReject x).code.toNat 0 := by
  refine ⟨s.reject c x, by rw [performWord, h], ?_⟩
  rw [State.reject_rsp]
  exact ⟨by rw [rspOp_rspWord], by rw [rspStatus_rspWord], rspZero_rspWord _ _ _,
    by rw [rspResult_rspWord, ite_self]; rfl⟩

/-- Settles O3: the decoder's three answers are the classes of the opcode map, and the two rejects are answered alike. -/
theorem wordsOutsideTheTableAreIllegalOrReserved : Obligations.WordsOutsideTheTableAreIllegalOrReserved := by
  intro c
  have hillegal := decode_eq_illegal_iff_unassignedOp c
  have hrsvd := decode_eq_rsvd_iff c
  exact ⟨hillegal, hrsvd, exists_decode_iff_inTable c, fun hop => performWord_of_reject (hillegal.2 hop),
    fun hop htable => performWord_of_reject (hrsvd.2 ⟨hop, htable⟩)⟩

/-! ## The response format -/

/-- Settles O6: every outcome's response is built by `rspWord` from the word's OP and a status. -/
theorem everyWordIsAnsweredInTheResponseFormat : Obligations.EveryWordIsAnsweredInTheResponseFormat := by
  intro c s
  obtain ⟨c', st, r, es, sel, ini, hperform, -, hop⟩ := performWord_outcome c s
  obtain ⟨hzero, hstatus, hresult⟩ := rspForm_rspWord (cmdOp c') st r
  exact ⟨_, hperform, rfl, (rspOp_rspWord _ _ _).trans hop, hzero, hstatus, hresult⟩

end Sys2Proof
end

section
/-! PROOFS. What the assembler accepts (30_encoding.md R100, R101): each form writes at most the terms it names, and each of its branches
keeps them well formed. -/

namespace Sys2Proof.Machine

/-- Where the assembler accepts, every command it writes is well formed. -/
def AllWf (o : Option (List Instr)) : Prop := ∀ is, o = some is → ∀ i ∈ is, i.wf = true

theorem allWf_none : AllWf none := nofun

theorem allWf_some {is : List Instr} (h : ∀ i ∈ is, i.wf = true) : AllWf (some is) := by
  rintro _ ⟨⟩
  exact h

theorem allWf_ite {p : Prop} [Decidable p] {a b : Option (List Instr)} (ha : p → AllWf a) (hb : AllWf b) :
    AllWf (if p then a else b) := by
  split
  · exact ha ‹p›
  · exact hb

theorem allWf_below {i : Instr} {n bound : Nat} (h : i.wf = true) : AllWf (below n bound i) :=
  allWf_ite (fun _ => allWf_some (by simpa using h)) allWf_none

/-- Of the operands only a raw send's width can make a term ill-formed, and the assembler asks 1 to 16 of it (R100). -/
theorem expand_allWf (m : List Char) (ops : List Nat) : AllWf (expand m ops) := by
  unfold expand
  repeat' refine allWf_ite (fun _ => ?_) ?_
  any_goals exact allWf_none
  all_goals split
  any_goals exact allWf_none
  any_goals exact allWf_below rfl
  · -- DDS.INIT
    exact allWf_some (by simp [Instr.wf])
  · -- SBL.SEND
    exact allWf_ite (fun hw => allWf_below (wf_sblSend_iff.2 hw)) allWf_none
  · -- DEB.READ
    exact allWf_some (by simp [Instr.wf])
  · -- SBL.XFER
    exact allWf_ite (fun hw => allWf_some (by simp [Instr.wf, hw])) allWf_none

/-- Settles O5: every branch of `expand` keeps well-formedness, and the pseudo-instructions' branches are read off. -/
theorem assemblerWritesWellFormedCommands : Obligations.AssemblerWritesWellFormedCommands := by
  refine ⟨expand_allWf, fun w v h1 h16 hv => ?_, fun v => ⟨rfl, rfl⟩, fun d => ⟨rfl, rfl⟩⟩
  exact if_pos (⟨h1, h16, hv⟩ : 1 ≤ w ∧ w ≤ 16 ∧ v < 2 ^ 16)

end Sys2Proof.Machine
end

section
/-! PROOFS. When the block reads `cmd_data` (30_encoding.md R104): two states that differ in this cycle's input levels alone are one
after the cycle, where the levels that the edge reads agree; an edge that accepts nothing reads neither `cmd_valid` nor `cmd_data`. -/

namespace Sys2Proof.Machine

/-- The state is what the command engine sees of it, the rest of the debounce engine and the environment's side. -/
theorem eq_of_view {s s' : State} (hview : s.commandView = s'.commandView) (hacc : s.acc = s'.acc)
    (hsync : s.sync = s'.sync) (hin : s.inputs = s'.inputs) (hclock : s.clock = s'.clock)
    (hb : s.beenReset = s'.beenReset) : s = s' := by
  have rebuilt (x : State) : x = { x.commandView with
      acc := x.acc, sync := x.sync, inputs := x.inputs, clock := x.clock, beenReset := x.beenReset } := rfl
  rw [rebuilt s, rebuilt s', hview, hacc, hsync, hin, hclock, hb]

@[simp] theorem commandView_passCycle (s : State) : s.passCycle.commandView = s.commandView := rfl

/-- Two states that differ in no more than this cycle's input levels differ in no more after one edge of the command engine. -/
theorem passCycle_commandEdge {s s' u u' : State} {p p' : PortIn} (hpass : s.passCycle = s'.passCycle)
    (hp : s.commandEdge p = s.commandEdge p') (hu : s.commandEdge p = .next u) (hu' : s'.commandEdge p' = .next u') :
    u.passCycle = u'.passCycle := by
  have hview : u.commandView = u'.commandView := by
    have hs : s.commandView = s'.commandView := by rw [← commandView_passCycle, hpass, commandView_passCycle]
    have h := commandEdge_view s p'
    rw [← hp, hu, hs, commandEdge_view, hu'] at h
    exact (Host.Outcome.next.inj h).symm
  obtain ⟨-, hacc, -, hsync, hb⟩ := commandEdge_keeps hu
  obtain ⟨-, hacc', -, hsync', hb'⟩ := commandEdge_keeps hu'
  obtain ⟨hin, hclock⟩ := commandEdge_environment hu
  obtain ⟨hin', hclock'⟩ := commandEdge_environment hu'
  simp only [State.passCycle, State.mk.injEq] at hpass
  apply eq_of_view (s := u.passCycle) (s' := u'.passCycle) hview <;> simp [*]

/-! ## A step and this cycle's levels -/

theorem step_of_reset {s : State} (hr : s.input.rst = true) : step s = .next s.resetEdge.passCycle := by
  simp [step, clockEdge, hr]

theorem step_before_reset {s : State} (hb : s.beenReset = false) (hr : s.input.rst = false) :
    step s = .next s.unspecifiedEdge.passCycle := by
  simp [step, clockEdge, hr, hb]

theorem resetEdge_passCycle (s : State) : s.resetEdge.passCycle = s.passCycle.resetEdge := rfl

theorem unspecifiedEdge_passCycle (s : State) : s.unspecifiedEdge.passCycle =
    State.unspecified s.passCycle.cfg s.passCycle.inputs s.passCycle.clock := rfl

theorem debounceEdge_passCycle (s : State) (p : PortIn) :
    (s.debounceEdge p).passCycle = s.passCycle.debounceEdge p := rfl

theorem debounceEdge_congr {p p' : PortIn} (hraw : p.rawIn = p'.rawIn) (htick : p.debTick = p'.debTick) (s : State) :
    s.debounceEdge p = s.debounceEdge p' := by
  simp only [State.debounceEdge, hraw, htick]

/-- A step reads of this cycle's levels no more than `rst`, `raw_in`, `deb_tick` and what the command engine's edge reads. -/
theorem step_congr {s s' : State} (hpass : s.passCycle = s'.passCycle) (hrst : s.input.rst = s'.input.rst)
    (hraw : s.input.rawIn = s'.input.rawIn) (htick : s.input.debTick = s'.input.debTick)
    (hedge : s.commandEdge s.input = s.commandEdge s'.input) : step s = step s' := by
  have hb : s.beenReset = s'.beenReset := by
    rw [← State.passCycle_beenReset, hpass, State.passCycle_beenReset]
  cases hr : s.input.rst with
  | true =>
    rw [step_of_reset hr, step_of_reset (hrst.symm.trans hr), resetEdge_passCycle, resetEdge_passCycle, hpass]
  | false =>
    have hr' := hrst.symm.trans hr
    cases hb0 : s.beenReset with
    | false =>
      rw [step_before_reset hb0 hr, step_before_reset (hb.symm.trans hb0) hr', unspecifiedEdge_passCycle,
        unspecifiedEdge_passCycle, hpass]
    | true =>
      obtain ⟨u, hu, hs⟩ := step_of_noReset hb0 hr
      obtain ⟨u', hu', hs'⟩ := step_of_noReset (hb.symm.trans hb0) hr'
      rw [hs, hs', debounceEdge_passCycle, debounceEdge_passCycle, passCycle_commandEdge hpass hedge hu hu',
        debounceEdge_congr hraw htick]

/-- An edge that accepts no word reads of the host's levels `rsp_ready` alone (R103). -/
theorem commandEdge_congr_of_not_accepting {s : State} {p p' : PortIn} (hready : p'.rspReady = p.rspReady)
    (h : (s.eng = .idle ∧ p.cmdValid = false ∧ p'.cmdValid = false) ∨ s.eng ≠ .idle) :
    s.commandEdge p = s.commandEdge p' := by
  unfold State.commandEdge
  rcases h with ⟨he, hv, hv'⟩ | he
  · simp [he, hv, hv']
  · rw [hready]
    cases hs : s.eng with
    | idle => exact absurd hs he
    | exec j => rfl
    | resp => rfl

/-- RSP is stable in RESP (R104). -/
theorem commandEdge_resp_rsp {s u : State} {p : PortIn} (he : s.eng = .resp) (hu : s.commandEdge p = .next u) :
    u.rsp = s.rsp := by
  simp only [State.commandEdge, he, Host.Outcome.next.injEq] at hu
  subst hu
  split <;> rfl

/-- Settles O56: an edge that accepts nothing is the same whatever word is offered, and one in RESP leaves RSP. -/
theorem commandDataIsReadOnlyAtAcceptance : Obligations.CommandDataIsReadOnlyAtAcceptance := by
  refine ⟨fun s p p' ps hrst hready hraw htick heng => ?_, fun s t hb he hr h => ?_⟩
  · exact step_congr rfl hrst.symm hraw.symm htick.symm (commandEdge_congr_of_not_accepting hready heng)
  · rcases step_next_cases hb h with ⟨hr', -⟩ | ⟨-, u, hu, rfl⟩
    · exact absurd (hr.symm.trans hr') nofun
    · exact (commandEdge_resp_rsp he hu :)

end Sys2Proof.Machine
end

section
/-! PROOFS. The digits of the BCD codec (40_bcd.md R130-R135): repeated subtraction gives the quotients by the powers of ten, and decoding
undoes it. -/

namespace Sys2Proof.Machine

/-! ## The subtractions -/

/-- Below ten times the divisor the ten rounds of one position suffice: the digit is the quotient, and the next positions read the
remainder (R133). -/
theorem subtractDigits_succ {k r : Nat} (h : r < 10 ^ (k + 2)) :
    subtractDigits (k + 1) r = r / 10 ^ (k + 1) :: subtractDigits k (r % 10 ^ (k + 1)) := by
  have hfuel : r < 10 * 10 ^ (k + 1) := by rwa [← pow_succ']
  simp only [subtractDigits, subtractCount_eq (Nat.pow_pos (by decide)) 10 0 r hfuel, Nat.zero_add]

/-- Digit `i` of `k + 1` is the one of 10^(k-i) (R133). -/
theorem subtractDigits_getElem? {k r i : Nat} (h : r < 10 ^ (k + 1)) (hi : i ≤ k) :
    (subtractDigits k r)[i]? = some (r / 10 ^ (k - i) % 10) := by
  induction k generalizing r i with
  | zero =>
    obtain rfl : i = 0 := by omega
    simp [subtractDigits, Nat.mod_eq_of_lt (show r < 10 from h)]
  | succ k ih =>
    rw [subtractDigits_succ h]
    cases i with
    | zero =>
      have hdigit : r / 10 ^ (k + 1) < 10 := Nat.div_lt_of_lt_mul (by rwa [← pow_succ])
      simp [Nat.mod_eq_of_lt hdigit]
    | succ j =>
      have hpow : 10 ^ (k + 1) = 10 ^ (k - j) * 10 ^ (j + 1) := by rw [← pow_add]; congr 1; omega
      have hdigit : r % 10 ^ (k + 1) / 10 ^ (k - j) % 10 = r / 10 ^ (k - j) % 10 := by
        rw [hpow, Nat.mod_mul_right_div_self, Nat.mod_mod_of_dvd _ (dvd_pow_self 10 (by omega))]
      rw [List.getElem?_cons_succ, ih (Nat.mod_lt _ (Nat.pow_pos (by decide))) (by omega), hdigit, Nat.add_sub_add_right]

/-- Every digit is 0..9 (R133). -/
theorem le_nine_of_mem_subtractDigits {k r d : Nat} (h : r < 10 ^ (k + 1)) (hd : d ∈ subtractDigits k r) : d ≤ 9 := by
  obtain ⟨i, hi⟩ := List.mem_iff_getElem?.1 hd
  obtain ⟨hlen, -⟩ := List.getElem?_eq_some_iff.1 hi
  rw [subtractDigits_length] at hlen
  rw [subtractDigits_getElem? h (by omega), Option.some.injEq] at hi
  omega

/-! ## Decoding -/

theorem bcdDecode_lt {ds : List Nat} (h : ∀ d ∈ ds, d ≤ 9) : bcdDecode ds < 10 ^ ds.length := by
  induction ds with
  | nil => simp [bcdDecode]
  | cons d ds ih =>
    obtain ⟨hd, hds⟩ := List.forall_mem_cons.1 h
    calc d * 10 ^ ds.length + bcdDecode ds < d * 10 ^ ds.length + 10 ^ ds.length := by have := ih hds; omega
      _ = (d + 1) * 10 ^ ds.length := by ring
      _ ≤ 10 * 10 ^ ds.length := Nat.mul_le_mul_right _ (by omega)
      _ = 10 ^ (d :: ds).length := (pow_succ' _ _).symm

/-- Decoding puts quotients and remainders together again (R135). -/
theorem bcdDecode_subtractDigits {k r : Nat} (h : r < 10 ^ (k + 1)) : bcdDecode (subtractDigits k r) = r := by
  induction k generalizing r with
  | zero => simp [subtractDigits, bcdDecode]
  | succ k ih =>
    rw [subtractDigits_succ h, bcdDecode, subtractDigits_length, ih (Nat.mod_lt _ (Nat.pow_pos (by decide)))]
    exact Nat.div_add_mod' _ _

/-- The value of valid digits has them as its quotients and remainders (R135). -/
theorem subtractDigits_bcdDecode {k : Nat} {ds : List Nat} (hlen : ds.length = k + 1) (h : ∀ d ∈ ds, d ≤ 9) :
    subtractDigits k (bcdDecode ds) = ds := by
  induction ds generalizing k with
  | nil => cases hlen
  | cons d ds ih =>
    have hlt := bcdDecode_lt h
    obtain ⟨-, hds⟩ := List.forall_mem_cons.1 h
    cases k with
    | zero =>
      obtain rfl := List.length_eq_zero_iff.1 (Nat.succ.inj hlen)
      simp [subtractDigits, bcdDecode]
    | succ k =>
      have hk : ds.length = k + 1 := Nat.succ.inj hlen
      have htail := bcdDecode_lt hds
      rw [hlen] at hlt
      rw [hk] at htail
      have hquot : (d * 10 ^ (k + 1) + bcdDecode ds) / 10 ^ (k + 1) = d := by
        rw [Nat.add_comm, Nat.add_mul_div_right _ _ (Nat.pow_pos (by decide)), Nat.div_eq_of_lt htail, Nat.zero_add]
      have hrem : (d * 10 ^ (k + 1) + bcdDecode ds) % 10 ^ (k + 1) = bcdDecode ds := by
        rw [Nat.mul_add_mod', Nat.mod_eq_of_lt htail]
      rw [subtractDigits_succ hlt, bcdDecode, hk, hquot, hrem, ih hk hds]

/-! ## Clipping -/

theorem clip_eight (v : Nat) : clip v 8 = min v 99999999 := rfl

theorem clip_ten (v : Nat) : clip v 10 = v := rfl

/-- A clipped 32-bit value has at most `n` digits (R131). -/
theorem clip_lt {v n : Nat} (hv : v < 2 ^ 32) (hn : n = 8 ∨ n = 10) : clip v n < 10 ^ n := by
  rcases hn with rfl | rfl
  · rw [clip_eight]; omega
  · rw [clip_ten]; omega

/-- Clipping leaves a value of at most `n` digits alone (R131). -/
theorem clip_of_lt {v n : Nat} (h : v < 10 ^ n) : clip v n = v := by
  unfold clip
  split
  next h8 => subst h8; exact min_eq_left (Nat.le_of_lt_succ h)
  next => rfl

/-! ## The conversions -/

theorem exists_width_eq_succ {n : Nat} (hn : n = 8 ∨ n = 10) : ∃ k, n = k + 1 :=
  Nat.exists_eq_add_one.2 (by omega)

/-- Settles O14: the digits of repeated subtraction are those of the quotients by the powers of ten. -/
theorem repeatedSubtractionIsDecimalDivision : Obligations.RepeatedSubtractionIsDecimalDivision := by
  intro v n hv hn
  have hlt := clip_lt hv hn
  obtain ⟨k, rfl⟩ := exists_width_eq_succ hn
  refine ⟨subtractDigits_length _ _, fun i hi => subtractDigits_getElem? hlt (Nat.le_of_lt_succ hi),
    fun d hd => le_nine_of_mem_subtractDigits hlt hd, fun h10 d hd => ?_⟩
  obtain rfl : k = 9 := by omega
  rw [List.head?_eq_getElem?] at hd
  have hfirst := Option.some.inj ((subtractDigits_getElem? hlt (Nat.zero_le 9)).symm.trans hd)
  rw [clip_ten] at hfirst
  omega

theorem bcdDecode_bcdEncode {v n : Nat} (hv : v < 2 ^ 32) (hn : n = 8 ∨ n = 10) :
    bcdDecode (bcdEncode v n) = clip v n := by
  have hlt := clip_lt hv hn
  obtain ⟨k, rfl⟩ := exists_width_eq_succ hn
  exact bcdDecode_subtractDigits hlt

theorem bcdEncode_bcdDecode {n : Nat} {ds : List Nat} (hn : n = 8 ∨ n = 10) (hlen : ds.length = n)
    (h : ∀ d ∈ ds, d ≤ 9) : bcdEncode (bcdDecode ds) n = ds := by
  have hlt := bcdDecode_lt h
  rw [hlen] at hlt
  obtain ⟨k, rfl⟩ := exists_width_eq_succ hn
  rw [bcdEncode, clip_of_lt hlt]
  exact subtractDigits_bcdDecode hlen h

/-- Settles O15: decoding undoes encoding up to the clipping, and encoding undoes decoding on valid digits. -/
theorem bcdRoundTripLaws : Obligations.BcdRoundTripLaws := by
  refine ⟨fun v hv => ⟨bcdDecode_bcdEncode hv (.inl rfl), bcdDecode_bcdEncode hv (.inr rfl)⟩, fun v hbig _ => ?_,
    fun n ds hn hlen h _ => bcdEncode_bcdDecode hn hlen h⟩
  have hclip : clip v 8 = clip 99999999 8 := min_eq_right hbig.le
  rw [bcdEncode, bcdEncode, hclip]

end Sys2Proof.Machine
end

section
/-! PROOFS. The BCD commands at the port (40_bcd.md R136-R139): a packed sequence is its nibbles, and each command answers what the
conversion makes of them. -/

namespace Sys2Proof.Machine

open Sys2Proof.Claims

/-! ## Packed digits and their nibbles -/

theorem unpackDigits_getElem? {x n i : Nat} (hi : i < n) : (unpackDigits x n)[i]? = some (nibble x (n - 1 - i)) := by
  induction n generalizing i with
  | zero => omega
  | succ n ih =>
    cases i with
    | zero => rfl
    | succ j => rw [unpackDigits, List.getElem?_cons_succ, ih (by omega)]; congr 2; omega

theorem forall_mem_unpackDigits {x n : Nat} {p : Nat → Prop} :
    (∀ d ∈ unpackDigits x n, p d) ↔ ∀ k, k < n → p (nibble x k) := by
  induction n with
  | zero => simp [unpackDigits]
  | succ n ih => rw [unpackDigits, List.forall_mem_cons, ih, Nat.forall_lt_succ_right, and_comm]; rfl

theorem digitsValid_unpackDigits {x n : Nat} :
    digitsValid (unpackDigits x n) = true ↔ ∀ k, k < n → nibble x k ≤ 9 := by
  simp only [digitsValid, List.all_eq_true, decide_eq_true_eq, forall_mem_unpackDigits]

theorem bcdDecode_unpackDigits (x n : Nat) : bcdDecode (unpackDigits x n) = digitSum x n := by
  induction n with
  | zero => rfl
  | succ n ih =>
    rw [unpackDigits, bcdDecode, unpackDigits_length, ih, digitSum, digitSum, Finset.sum_range_succ, Nat.add_comm]
    rfl

/-- `n` valid digits are worth less than 10^n (R134). -/
theorem digitSum_lt {x n : Nat} (h : ∀ k, k < n → nibble x k ≤ 9) : digitSum x n < 10 ^ n := by
  have hlt := bcdDecode_lt (forall_mem_unpackDigits.2 h)
  rwa [bcdDecode_unpackDigits, unpackDigits_length] at hlt

/-- A packed sequence whose nibbles are the decimal digits of `m` is worth `m`'s last digits. -/
theorem digitSum_of_decimal {x m n : Nat} (h : ∀ k, k < n → nibble x k = m / 10 ^ k % 10) : digitSum x n = m % 10 ^ n := by
  induction n with
  | zero => simp [digitSum, Nat.mod_one]
  | succ n ih =>
    have hrest : digitSum x n = m % 10 ^ n := ih fun k hk => h k (by omega)
    rw [digitSum, Finset.sum_range_succ, ← digitSum, hrest, h n (Nat.lt_succ_self n), Nat.mod_pow_succ, Nat.mul_comm]

/-- The packed encoding of `v` fits `n` nibbles, and they are the decimal digits of the clipped value (R96, R133). -/
theorem packDigits_bcdEncode {v n : Nat} (hv : v < 2 ^ 32) (hn : n = 8 ∨ n = 10) :
    packDigits (bcdEncode v n) < 16 ^ n ∧ ∀ k, k < n → nibble (packDigits (bcdEncode v n)) k = clip v n / 10 ^ k % 10 := by
  obtain ⟨hlen, hdigit, hle, -⟩ := repeatedSubtractionIsDecimalDivision v n hv hn
  have h16 : ∀ d ∈ bcdEncode v n, d < 16 := fun d hd => by have := hle d hd; omega
  have hlt := packDigits_lt _ h16
  have hunpack := unpackDigits_packDigits _ h16
  rw [hlen] at hlt hunpack
  refine ⟨hlt, fun k hk => ?_⟩
  have hi : n - 1 - (n - 1 - k) = k := by omega
  have hnib := unpackDigits_getElem? (x := packDigits (bcdEncode v n)) (show n - 1 - k < n by omega)
  rw [hunpack, hdigit _ (by omega), hi] at hnib
  exact (Option.some.inj hnib).symm

/-! ## The answers -/

theorem answers_respond_ok {i : Instr} {s : State} {r : Nat} (hr : r < 2 ^ 40) :
    Answers ((s.accept (encode i)).respond .ok (BitVec.ofNat 40 r)).rsp (opOf i).toNat 0 r := by
  rw [State.respond_rsp, State.accept_cmd, cmdOp_encode]
  exact ⟨by rw [rspOp_rspWord], by rw [rspStatus_rspWord]; rfl, rspZero_rspWord _ _ _,
    by rw [rspResult_rspWord_ok, BitVec.toNat_ofNat, Nat.mod_eq_of_lt hr]⟩

theorem answers_raise {i : Instr} {s : State} {st : Status} :
    Answers ((s.accept (encode i)).raise st).rsp (opOf i).toNat st.code.toNat 0 := by
  rw [State.raise_rsp, State.accept_cmd, cmdOp_encode]
  exact ⟨by rw [rspOp_rspWord], by rw [rspStatus_rspWord], rspZero_rspWord _ _ _,
    by rw [rspResult_rspWord, ite_self]; rfl⟩

theorem onlyAnswered_of_noEvents {i : Instr} {s t : State} (hi : noEvents i = true) (h : exec i s = .next t) :
    OnlyAnswered s t :=
  (commandsWithoutEventsOnlyAnswer i s t hi h).1

/-! ## The encode commands -/

/-- Settles O10: the response carries the packed encoding, whose nibbles are the clipped value's digits. -/
theorem bcdEnc8AnswersTheClippedDigits : Obligations.BcdEnc8AnswersTheClippedDigits := by
  intro v s
  obtain ⟨hlt, hnib⟩ := packDigits_bcdEncode v.isLt (.inl rfl)
  exact ⟨_, rfl, ⟨_, answers_respond_ok (i := .bcdEnc8 v) (hlt.trans (by decide)), hlt, hnib⟩,
    onlyAnswered_of_noEvents (i := .bcdEnc8 v) rfl rfl⟩

/-- Settles O11: the response carries the packed encoding, whose nibbles are the value's digits. -/
theorem bcdEnc10AnswersTheDigits : Obligations.BcdEnc10AnswersTheDigits := by
  intro v s
  obtain ⟨hlt, hnib⟩ := packDigits_bcdEncode v.isLt (.inr rfl)
  exact ⟨_, rfl, ⟨_, answers_respond_ok (i := .bcdEnc10 v) (hlt.trans_eq (by decide)), hnib⟩,
    onlyAnswered_of_noEvents (i := .bcdEnc10 v) rfl rfl⟩

/-! ## The decode commands -/

theorem exec_bcdDec8_of_valid {d : Word32} (h : ∀ k, k < 8 → nibble d.toNat k ≤ 9) (s : State) :
    exec (.bcdDec8 d) s =
      .next ((s.accept (encode (.bcdDec8 d))).respond .ok (BitVec.ofNat 40 (digitSum d.toNat 8))) := by
  rw [← bcdDecode_unpackDigits]
  exact if_pos (digitsValid_unpackDigits.2 h)

theorem exec_bcdDec8_of_invalid {d : Word32} (h : ¬ ∀ k, k < 8 → nibble d.toNat k ≤ 9) (s : State) :
    exec (.bcdDec8 d) s = .next ((s.accept (encode (.bcdDec8 d))).raise .digit) :=
  if_neg (mt digitsValid_unpackDigits.1 h)

theorem exec_bcdDec10_of_valid {d : Word40} (h : ∀ k, k < 10 → nibble d.toNat k ≤ 9)
    (hr : digitSum d.toNat 10 ≤ 4294967295) (s : State) :
    exec (.bcdDec10 d) s =
      .next ((s.accept (encode (.bcdDec10 d))).respond .ok (BitVec.ofNat 40 (digitSum d.toNat 10))) := by
  rw [← bcdDecode_unpackDigits] at hr ⊢
  exact (if_pos (digitsValid_unpackDigits.2 h)).trans (if_pos hr)

theorem exec_bcdDec10_of_above {d : Word40} (h : ∀ k, k < 10 → nibble d.toNat k ≤ 9)
    (hr : ¬ digitSum d.toNat 10 ≤ 4294967295) (s : State) :
    exec (.bcdDec10 d) s = .next ((s.accept (encode (.bcdDec10 d))).raise .range) := by
  rw [← bcdDecode_unpackDigits] at hr
  exact (if_pos (digitsValid_unpackDigits.2 h)).trans (if_neg hr)

theorem exec_bcdDec10_of_invalid {d : Word40} (h : ¬ ∀ k, k < 10 → nibble d.toNat k ≤ 9) (s : State) :
    exec (.bcdDec10 d) s = .next ((s.accept (encode (.bcdDec10 d))).raise .digit) :=
  if_neg (mt digitsValid_unpackDigits.1 h)

/-- Settles O12, by the check of R138 on the digits. -/
theorem bcdDec8AnswersTheValue : Obligations.BcdDec8AnswersTheValue := by
  intro d s
  by_cases h : ∀ k, k < 8 → nibble d.toNat k ≤ 9
  · have he := exec_bcdDec8_of_valid h s
    refine ⟨_, he, onlyAnswered_of_noEvents rfl he, fun _ => ?_, fun k hk hbad => absurd (h k hk) hbad.not_ge⟩
    exact answers_respond_ok (i := .bcdDec8 d) ((digitSum_lt h).trans (by decide))
  · have he := exec_bcdDec8_of_invalid h s
    exact ⟨_, he, onlyAnswered_of_noEvents rfl he, fun hv => absurd hv h, fun _ _ _ => answers_raise (i := .bcdDec8 d)⟩

/-- Settles O13, by the two checks of R139 in their order: the digits, then the range. -/
theorem bcdDec10AnswersTheValue : Obligations.BcdDec10AnswersTheValue := by
  intro d s
  by_cases h : ∀ k, k < 10 → nibble d.toNat k ≤ 9
  · by_cases hr : digitSum d.toNat 10 ≤ 4294967295
    · have he := exec_bcdDec10_of_valid h hr s
      refine ⟨_, he, onlyAnswered_of_noEvents rfl he, fun _ _ => ?_, fun _ hbig => absurd hr hbig.not_ge,
        fun k hk hbad => absurd (h k hk) hbad.not_ge⟩
      exact answers_respond_ok (i := .bcdDec10 d) (hr.trans_lt (by decide))
    · have he := exec_bcdDec10_of_above h hr s
      exact ⟨_, he, onlyAnswered_of_noEvents rfl he, fun _ hle => absurd hle hr,
        fun _ _ => answers_raise (i := .bcdDec10 d), fun k hk hbad => absurd (h k hk) hbad.not_ge⟩
  · have he := exec_bcdDec10_of_invalid h s
    exact ⟨_, he, onlyAnswered_of_noEvents rfl he, fun hv => absurd hv h, fun hv => absurd hv h,
      fun _ _ _ => answers_raise (i := .bcdDec10 d)⟩

/-! ## The round trip -/

/-- What an encode command answered is valid, and worth the encoded value (R135). -/
theorem valid_and_digitSum_of_decimal {x m n : Nat} (h : ∀ k, k < n → nibble x k = m / 10 ^ k % 10) (hm : m < 10 ^ n) :
    (∀ k, k < n → nibble x k ≤ 9) ∧ digitSum x n = m :=
  ⟨fun k hk => by rw [h k hk]; omega, (digitSum_of_decimal h).trans (Nat.mod_eq_of_lt hm)⟩

/-- Settles O16: each encode command answers the packed digits (O10, O11), and the decode command their value (O12, O13). -/
theorem bcdCommandsRoundTrip : Obligations.BcdCommandsRoundTrip := by
  intro v s
  constructor
  · obtain ⟨t, ht, ⟨r, ⟨-, -, -, hres⟩, hlt, hnib⟩, -⟩ := bcdEnc8AnswersTheClippedDigits v s
    obtain ⟨u, hu, -, hanswer, -⟩ := bcdDec8AnswersTheValue ((rspResult t.rsp).extractLsb' 0 32) t
    have hpacked : ((rspResult t.rsp).extractLsb' 0 32).toNat = r := by
      rw [BitVec.extractLsb'_toNat, hres, Nat.shiftRight_zero, Nat.mod_eq_of_lt (hlt.trans_eq (by decide))]
    obtain ⟨hvalid, hsum⟩ := valid_and_digitSum_of_decimal hnib (by omega)
    rw [hpacked, hsum] at hanswer
    exact ⟨t, u, ht, hu, hanswer hvalid⟩
  · obtain ⟨t, ht, ⟨r, ⟨-, -, -, hres⟩, hnib⟩, -⟩ := bcdEnc10AnswersTheDigits v s
    obtain ⟨u, hu, -, hanswer, -⟩ := bcdDec10AnswersTheValue (rspResult t.rsp) t
    have hv := v.isLt
    obtain ⟨hvalid, hsum⟩ := valid_and_digitSum_of_decimal hnib (by omega)
    rw [hres, hsum] at hanswer
    exact ⟨t, u, ht, hu, hanswer hvalid (by omega)⟩

end Sys2Proof.Machine
end

section
/-! PROOFS. The tuning calculator (41_tuning.md R162-R169): the shifts of R162 round q · RATIO / 2^37 to the nearest word, halves up, and
each TUNE command answers that word. -/

namespace Sys2Proof.Machine

open Sys2Proof.Claims

/-! ## The rounded word -/

/-- The product shifted by 36, halved and added its last bit, is the quotient by 2^37 rounded half up (R162). -/
theorem fracToTuning_eq_roundedWord (ratio q : Word32) : fracToTuning ratio q = roundedWord ratio q.toNat := by
  rw [fracToTuning_div, roundedWord]
  omega

/-- The 64-bit multiply does not overflow (R164). -/
theorem mul_ratio_lt (ratio q : Word32) : q.toNat * ratio.toNat < 2 ^ 64 :=
  (Nat.mul_lt_mul'' q.isLt ratio.isLt).trans_eq (by decide)

theorem roundedWord_le (ratio q : Word32) : roundedWord ratio q.toNat ≤ 2 ^ 27 := by
  have hp := mul_ratio_lt ratio q
  rw [roundedWord]
  omega

theorem roundedWord_lt_result (ratio q : Word32) : roundedWord ratio q.toNat < 2 ^ 40 :=
  (roundedWord_le ratio q).trans_lt (by decide)

theorem roundedWord_zero (ratio : Word32) : roundedWord ratio 0 = 0 := by
  simp [roundedWord]

theorem roundedWord_mono (ratio : Word32) {q q' : Nat} (h : q ≤ q') : roundedWord ratio q ≤ roundedWord ratio q' :=
  Nat.div_le_div_right (Nat.add_le_add_right (Nat.mul_le_mul_right _ h) _)

/-- The word is off by at most one half, and only upwards by exactly that (R164). -/
theorem roundedWord_error (ratio : Word32) (q : Nat) :
    q * ratio.toNat < 2 ^ 37 * roundedWord ratio q + 2 ^ 36 ∧
      2 ^ 37 * roundedWord ratio q ≤ q * ratio.toNat + 2 ^ 36 := by
  rw [roundedWord]
  omega

/-! ## The default RATIO -/

/-- The default RATIO is twice an odd number (R9, R165). -/
theorem default_ratio_toNat : Config.default.ratio.toNat = 2 * 1921535841 := by decide

theorem roundedWord_default_max : roundedWord Config.default.ratio 0xFFFFFFFF = 120095990 := by decide

theorem roundedWord_default_17 : roundedWord Config.default.ratio 17 = 0 := by decide

theorem roundedWord_default_18 : roundedWord Config.default.ratio 18 = 1 := by decide

/-- Settles O19: the calculator gives the rounded word, which is monotone in q, so its bounds are its values at the ends. -/
theorem tuningLaws : Obligations.TuningLaws := by
  simp only [Obligations.TuningLaws, fracToTuning_eq_roundedWord]
  refine ⟨fun ratio q => ⟨mul_ratio_lt ratio q, ?_, roundedWord_le ratio q, (roundedWord_le ratio q).antisymm⟩,
    fun ratio => ⟨roundedWord_zero ratio, ?_⟩, fun ratio _ _ h => roundedWord_mono ratio h,
    fun ratio q => roundedWord_error ratio q.toNat, fun q => ⟨?_, fun h => ?_⟩, roundedWord_default_max,
    roundedWord_default_18⟩
  · have hp := mul_ratio_lt ratio q
    rw [Nat.shiftRight_eq_div_pow]
    omega
  · exact congrArg some ((fracToTuning_eq_roundedWord ratio 0#32).trans (roundedWord_zero ratio))
  · exact (roundedWord_mono _ (Nat.le_of_lt_succ q.isLt)).trans_eq roundedWord_default_max
  · exact Nat.le_zero.1 ((roundedWord_mono _ h).trans_eq roundedWord_default_17)

/-- A tie with twice an odd number asks 2^35 to divide q (R165). -/
theorem ne_tie_of_ratio_twice_odd {q n : Nat} (hn : Odd n) (hq : q < 2 ^ 35) : q * (2 * n) % 2 ^ 37 ≠ 2 ^ 36 := by
  intro htie
  rw [Nat.mul_left_comm] at htie
  have hprod : 2 ^ 35 ∣ q * n := by omega
  have hdvd : 2 ^ 35 ∣ q := (hn.coprime_two_left.pow_left 35).dvd_of_dvd_mul_right hprod
  obtain rfl := Nat.eq_zero_of_dvd_of_lt hdvd hq
  omega

/-- Settles O20: the dropped bit is added to the half, and the default RATIO is twice an odd number. -/
theorem tiesRoundUpAndNeverOccurWithTheDefaultRatio : Obligations.TiesRoundUpAndNeverOccurWithTheDefaultRatio := by
  refine ⟨fun ratio q hbit => ?_, fun q htie => ?_⟩
  · rw [fracToTuning_div, hbit, Nat.div_div_eq_div_mul, ← pow_succ]
  · rw [default_ratio_toNat] at htie
    exact ne_tie_of_ratio_twice_odd (by decide) (q.isLt.trans (by decide)) htie

/-! ## The answers -/

/-- Settles O17: the answer is the calculator's word. -/
theorem tuneFracAnswersTheRoundedWord : Obligations.TuneFracAnswersTheRoundedWord := by
  intro q s
  refine ⟨_, rfl, ?_, onlyAnswered_of_noEvents (i := .tuneFrac q) rfl rfl⟩
  rw [State.accept_cfg, fracToTuning_eq_roundedWord]
  exact answers_respond_ok (i := .tuneFrac q) (roundedWord_lt_result _ q)

/-- A frequency in the Q25.7 range loses no bit to the shift (R163). -/
theorem toNat_shiftLeft_seven {f : Word32} (h : f.toNat ≤ 33554431) : (f <<< 7).toNat = f.toNat * 128 := by
  rw [BitVec.toNat_shiftLeft, Nat.shiftLeft_eq, Nat.mod_eq_of_lt (by omega)]

theorem intToTuning_of_above {f : Word32} (h : 33554431 < f.toNat) (ratio : Word32) : intToTuning ratio f = none :=
  if_pos ((aboveRange_iff f).2 h)

theorem exec_tuneInt_of_le {f : Word32} (h : f.toNat ≤ 33554431) (s : State) :
    exec (.tuneInt f) s = .next ((s.accept (encode (.tuneInt f))).respond .ok
      (BitVec.ofNat 40 (roundedWord s.cfg.ratio (f <<< 7).toNat))) := by
  simp only [exec, execTuneInt, State.accept_cfg, intToTuning_of_le h, fracToTuning_eq_roundedWord]

theorem exec_tuneInt_of_above {f : Word32} (h : 33554431 < f.toNat) (s : State) :
    exec (.tuneInt f) s = .next ((s.accept (encode (.tuneInt f))).raise .range) := by
  simp only [exec, execTuneInt, intToTuning_of_above h]

/-- Settles O18, by the range check of R163. -/
theorem tuneIntAnswersTheRoundedWordOrRange : Obligations.TuneIntAnswersTheRoundedWordOrRange := by
  intro f s
  rcases Nat.lt_or_ge 33554431 f.toNat with h | h
  · have he := exec_tuneInt_of_above h s
    exact ⟨_, he, onlyAnswered_of_noEvents rfl he, fun hle => absurd hle h.not_ge,
      fun _ => answers_raise (i := .tuneInt f)⟩
  · have he := exec_tuneInt_of_le h s
    refine ⟨_, he, onlyAnswered_of_noEvents rfl he, fun _ => ?_, fun hgt => absurd hgt h.not_gt⟩
    rw [← toNat_shiftLeft_seven h]
    exact answers_respond_ok (i := .tuneInt f) (roundedWord_lt_result _ _)

/-- Settles O21: both commands answer the word of the configuration's RATIO and the one frequency (O17, O18). -/
theorem tuneIntAgreesWithTuneFrac : Obligations.TuneIntAgreesWithTuneFrac := by
  intro f s s' hf hratio
  obtain ⟨t, ht, -, hanswer, -⟩ := tuneIntAnswersTheRoundedWordOrRange f s
  obtain ⟨t', ht', ⟨-, hstatus', -, hresult'⟩, -⟩ := tuneFracAnswersTheRoundedWord (f <<< 7) s'
  obtain ⟨-, hstatus, -, hresult⟩ := hanswer hf
  rw [toNat_shiftLeft_seven hf, ← hratio] at hresult'
  exact ⟨t, t', ht, ht', BitVec.eq_of_toNat_eq hstatus, BitVec.eq_of_toNat_eq hstatus',
    BitVec.eq_of_toNat_eq (hresult.trans hresult'.symm)⟩

end Sys2Proof.Machine
end

section
/-! PROOFS. The commands of the DDS protocol (42_dds_protocol.md R193-R199): what a frequency change and DDS.INIT send, answer and leave, and
what refuses a change. -/

namespace Sys2Proof.Machine

open Sys2Proof.Claims

/-! ## A frequency change performed or refused -/

theorem isChange_le {ratio : Word32} {tw : Nat} {i : Instr} (h : isChange ratio tw i) : tw ≤ 2 ^ 27 := by
  cases i with
  | ddsSeti f =>
    obtain ⟨hf, rfl⟩ := h
    rw [← toNat_shiftLeft_seven hf]
    exact roundedWord_le ratio _
  | ddsSetf q =>
    obtain rfl := h
    exact roundedWord_le ratio q
  | _ => exact h.elim

/-- An initialised block sends the tuning word of the change (R193, R196, R197). -/
theorem exec_change_eq_ddsUpdate {i : Instr} {tw : Nat} {s : State} (h : isChange s.cfg.ratio tw i)
    (hi : s.inited = true) : exec i s = .next ((s.accept (encode i)).ddsUpdate tw) := by
  cases i with
  | ddsSeti f =>
    obtain ⟨hf, rfl⟩ := h
    simp [exec, execDdsSeti, intToTuning_of_le hf, fracToTuning_eq_roundedWord, toNat_shiftLeft_seven hf, hi]
  | ddsSetf q =>
    obtain rfl := h
    simp [exec, execDdsSetf, fracToTuning_eq_roundedWord, hi]
  | _ => exact h.elim

/-- RANGE comes first: it is answered whether or not the block is initialised (R196, R303). -/
theorem exec_ddsSeti_of_above {f : Word32} (h : 33554431 < f.toNat) (s : State) :
    exec (.ddsSeti f) s = .next ((s.accept (encode (.ddsSeti f))).raise .range) := by
  simp only [exec, execDdsSeti, intToTuning_of_above h]

theorem onlyAnswered_raise (c : Word64) (st : Status) (s : State) : OnlyAnswered s ((s.accept c).raise st) := rfl

/-- Settles O24: above the range the answer is RANGE; a change in range is refused with NOINIT alone. -/
theorem ddsSetRefusedLeavesEverything : Obligations.DdsSetRefusedLeavesEverything := by
  refine ⟨fun f s hf => ?_, fun f s hf hi => ?_, fun q s hi => ?_⟩
  · exact ⟨_, exec_ddsSeti_of_above hf s, answers_raise (i := .ddsSeti f), onlyAnswered_raise _ _ s⟩
  · exact ⟨_, exec_change_of_not_inited (i := .ddsSeti f) ⟨hf, rfl⟩ hi, answers_raise (i := .ddsSeti f),
      onlyAnswered_raise _ _ s⟩
  · exact ⟨_, exec_change_of_not_inited (i := .ddsSetf q) rfl hi, answers_raise (i := .ddsSetf q),
      onlyAnswered_raise _ _ s⟩

/-! ## The words of R191 as claims write them -/

/-- The selector bit shifted to position `n` is the power of two there. -/
theorem one_shiftLeft_eq_ofNat (w n : Nat) : 1#w <<< n = BitVec.ofNat w (2 ^ n) := by
  rw [← BitVec.twoPow_eq]
  apply BitVec.eq_of_toNat_eq
  rw [BitVec.toNat_twoPow, BitVec.toNat_ofNat]

theorem wordSel_eq_selectWord (c : Config) (s : RegSet) : wordSel c s = selectWord c s := by
  cases s with
  | set0 => simp [wordSel, selectWord, RegSet.bit]
  | set1 => simp [wordSel, selectWord, RegSet.bit, one_shiftLeft_eq_ofNat]

theorem freqTag_or_eq_freqWord (c : Config) (s : RegSet) (x : BitVec 14) :
    freqTag c s ||| x.zeroExtend 16 = freqWord c s x.toNat := by
  have hx : x.zeroExtend 16 = BitVec.ofNat 16 x.toNat := BitVec.eq_of_toNat_eq (by simp)
  cases s <;> rw [hx] <;> rfl

theorem wordLo_eq_freqWord (c : Config) (s : RegSet) {tw : Nat} (h : tw < 2 ^ 28) :
    wordLo c s (BitVec.ofNat 28 tw) = freqWord c s (tw % 2 ^ 14) := by
  rw [wordLo, freqTag_or_eq_freqWord, BitVec.extractLsb'_toNat, BitVec.toNat_ofNat, Nat.mod_eq_of_lt h,
    Nat.shiftRight_zero]

theorem wordHi_eq_freqWord (c : Config) (s : RegSet) {tw : Nat} (h : tw < 2 ^ 28) :
    wordHi c s (BitVec.ofNat 28 tw) = freqWord c s (tw / 2 ^ 14) := by
  rw [wordHi, freqTag_or_eq_freqWord, BitVec.extractLsb'_toNat, BitVec.toNat_ofNat, Nat.mod_eq_of_lt h,
    Nat.shiftRight_eq_div_pow, Nat.mod_eq_of_lt (by omega)]

/-! ## One transaction -/

theorem bits16_eq_wordEvents (w : Word16) : bits16 w = wordEvents w := rfl

theorem frameEvents_eq_transaction (csN : Bool) (ws : List Word16) : frameEvents csN ws = transaction csN ws := by
  have hwords : ws.flatMap bits16 = (ws.map wordEvents).flatten := by
    rw [List.flatMap_def, funext bits16_eq_wordEvents]
  cases csN <;> simp [frameEvents, transaction, hwords]

/-- A transaction ends with the last bit of its last word and the rise of CS_N (R194). -/
theorem frameEvents_eq_append (csN : Bool) (ws : List Word16) (w : Word16) :
    ∃ es, frameEvents csN (ws ++ [w]) = es ++ [.bit (w.getLsbD 0), .csHigh] := by
  have hbits : bits16 w = (bits16 w).dropLast ++ [.bit (w.getLsbD 0)] := rfl
  refine ⟨(if csN then [] else [.csHigh]) ++ [.csLow] ++ ws.flatMap bits16 ++ (bits16 w).dropLast, ?_⟩
  rw [frameEvents, List.flatMap_append, List.flatMap_singleton, hbits]
  simp

/-- So it leaves CS_N and SCLK high and SDATA at that bit (R194, R230). -/
theorem lines_emitFrame (s : State) (ws : List Word16) (w : Word16) :
    (s.emitFrame (ws ++ [w])).lines = ⟨true, true, w.getLsbD 0⟩ := by
  obtain ⟨es, hes⟩ := frameEvents_eq_append s.csN ws w
  calc (s.emitFrame (ws ++ [w])).lines
      = (frameEvents s.csN (ws ++ [w])).foldl Lines.event s.lines := foldl_perform_lines s _
    _ = ⟨true, true, w.getLsbD 0⟩ := by rw [hes, List.foldl_append]; rfl

/-! ## What DDS.SET* and DDS.INIT leave -/

theorem updateResult_toNat (s : RegSet) (tw : Word28) :
    (updateResult s tw).toNat = setNumber s * 2 ^ 32 + tw.toNat := by
  rw [updateResult, BitVec.append_assoc, BitVec.toNat_cast, BitVec.toNat_append,
    ← Nat.shiftLeft_add_eq_or_of_lt (BitVec.isLt _), Nat.shiftLeft_eq]
  have htw : (0#4 ++ tw).toNat = tw.toNat := by rw [BitVec.toNat_append]; simp
  cases s <;> simp [RegSet.bit, setNumber, htw]

theorem answers_rspWord_ok (op : Nibble) (r : Word40) : Answers (rspWord op .ok r) op.toNat 0 r.toNat :=
  ⟨by rw [rspOp_rspWord], by rw [rspStatus_rspWord]; rfl, rspZero_rspWord _ _ _, by rw [rspResult_rspWord_ok]⟩

theorem setNumber_other (s : RegSet) : setNumber s.other = 1 - setNumber s := by
  cases s <;> rfl

theorem ddsUpdate_emitted (s : State) (c : Word64) (tw : Nat) :
    ((s.accept c).ddsUpdate tw).emitted = frameEvents s.csN (updateWords s.cfg s.sel (BitVec.ofNat 28 tw)) := rfl

theorem ddsUpdate_rsp (s : State) (c : Word64) (tw : Nat) :
    ((s.accept c).ddsUpdate tw).rsp = rspWord (cmdOp c) .ok (updateResult s.sel (BitVec.ofNat 28 tw)) := by
  simp [State.ddsUpdate, State.emitFrame]

theorem ddsUpdate_lines (s : State) (tw : Nat) :
    (s.ddsUpdate tw).lines = ⟨true, true, (wordSel s.cfg s.sel).getLsbD 0⟩ :=
  lines_emitFrame s [wordLo s.cfg s.sel (BitVec.ofNat 28 tw), wordHi s.cfg s.sel (BitVec.ofNat 28 tw)] _

/-- No command writes the debounce side, the configuration or the environment (R275, R47). -/
theorem exec_unchanged {i : Instr} {s t : State} (h : exec i s = .next t) :
    t.acc = s.acc ∧ t.pub = s.pub ∧ t.sync = s.sync ∧ t.cfg = s.cfg ∧ t.inputs = s.inputs ∧ t.clock = s.clock ∧
      t.beenReset = s.beenReset := by
  rw [exec_frame h]
  exact ⟨rfl, rfl, rfl, rfl, rfl, rfl, rfl⟩

/-- A frequency change of an initialised block is one transaction to the set SEL names, which it flips (R193, R196, R197). -/
theorem changed_of_isChange {i : Instr} {tw : Nat} {s : State} (h : isChange s.cfg.ratio tw i)
    (hi : s.inited = true) : ∃ t, exec i s = .next t ∧ Changed (opOf i).toNat tw s t := by
  have hexec := exec_change_eq_ddsUpdate h hi
  have hlt : tw < 2 ^ 28 := (isChange_le h).trans_lt (by decide)
  have hlines := ddsUpdate_lines (s.accept (encode i)) tw
  obtain ⟨hacc, hpub, hsync, hcfg, hin, hclock, hb⟩ := exec_unchanged hexec
  refine ⟨_, hexec, ?_⟩
  exact {
    events := by
      rw [ddsUpdate_emitted, frameEvents_eq_transaction, updateWords, wordLo_eq_freqWord _ _ hlt,
        wordHi_eq_freqWord _ _ hlt, wordSel_eq_selectWord]
    sel := setNumber_other s.sel
    answer := by
      have hanswer := answers_rspWord_ok (opOf i) (updateResult s.sel (BitVec.ofNat 28 tw))
      rwa [updateResult_toNat, BitVec.toNat_ofNat, Nat.mod_eq_of_lt hlt, ← cmdOp_encode i, ← ddsUpdate_rsp s,
        cmdOp_encode] at hanswer
    resp := rfl
    csN := congrArg Lines.csN hlines
    sclk := congrArg Lines.sclk hlines
    sdata := by rw [← wordSel_eq_selectWord]; exact congrArg Lines.sdata hlines
    inited := State.ddsUpdate_inited _ tw
    acc := hacc
    pub := hpub
    sync := hsync
    cfg := hcfg
    inputs := hin
    clock := hclock
    beenReset := hb }

/-- Settles O22: up to 33,554,431 Hz DDS.SETI is a frequency change. -/
theorem ddsSetiLoadsTheInactiveSet : Obligations.DdsSetiLoadsTheInactiveSet :=
  fun f _ hi hf => changed_of_isChange (i := .ddsSeti f) ⟨hf, rfl⟩ hi

/-- Settles O23: DDS.SETF is a frequency change for every q. -/
theorem ddsSetfLoadsTheInactiveSet : Obligations.DdsSetfLoadsTheInactiveSet :=
  fun q _ hi => changed_of_isChange (i := .ddsSetf q) rfl hi

theorem initWords_eq (c : Config) : initWords c =
    [c.ctrlB28 ||| c.ctrlReset, c.freqTag0, c.freqTag0, c.freqTag1, c.freqTag1, c.phaseTag0, c.phaseTag1,
      selectWord c .set1] := by
  rw [← wordSel_eq_selectWord]
  rfl

/-- The state DDS.INIT leaves (R195). -/
def State.initialised (s : State) : State :=
  { (s.accept (encode .ddsInit)).emitFrame (initWords s.cfg) with sel := .set0, inited := true }.respond .ok 0#40

theorem exec_ddsInit (s : State) : exec .ddsInit s = .next s.initialised := rfl

theorem initialised_emitted (s : State) : s.initialised.emitted = frameEvents s.csN (initWords s.cfg) := rfl

theorem initialised_rsp (s : State) : s.initialised.rsp = 0x7000000000000000#64 := by
  have hrsp : s.initialised.rsp = rspWord (cmdOp (encode .ddsInit)) .ok 0#40 := by
    simp [State.initialised, State.emitFrame]
  rw [hrsp]
  decide

theorem initialised_lines (s : State) : s.initialised.lines = ⟨true, true, (wordSel s.cfg .set1).getLsbD 0⟩ :=
  lines_emitFrame (s.accept _) (initWords s.cfg).dropLast _

/-- Settles O25: DDS.INIT emits its eight words in one transaction and writes SEL and INITED; the rest is the frame of a command. -/
theorem ddsInitZeroesBothSets : Obligations.DdsInitZeroesBothSets := by
  intro s
  have hexec := exec_ddsInit s
  have hlines := initialised_lines s
  rw [wordSel_eq_selectWord] at hlines
  refine ⟨_, hexec, ?_, initialised_rsp s, rfl, rfl, rfl, congrArg Lines.csN hlines, congrArg Lines.sclk hlines,
    congrArg Lines.sdata hlines, exec_unchanged hexec⟩
  rw [initialised_emitted, frameEvents_eq_transaction, initWords_eq]

end Sys2Proof.Machine
end

section
/-! PROOFS. What moves SEL (42_dds_protocol.md R199): a command that moves it sends a frame, so it is still in progress after acceptance,
and SEL is written at its completion. -/

namespace Sys2Proof.Machine

open Sys2Proof.Claims

/-! ## Commands that emit nothing -/

theorem frameEvents_ne_nil (csN : Bool) (ws : List Word16) : frameEvents csN ws ≠ [] := by
  simp [frameEvents]

/-- A command that emits no event leaves SEL: a DDS command that moves it sends a frame (R193, R195). -/
theorem exec_sel_of_silent {i : Instr} {s t : State} (h : exec i s = .next t) (hes : t.emitted = []) :
    t.sel = s.sel := by
  cases i with
  | ddsSeti f =>
    simp only [exec, execDdsSeti] at h
    split at h
    · cases h; rfl
    · split at h
      · cases h; exact absurd hes (frameEvents_ne_nil _ _)
      · cases h; rfl
  | ddsSetf q =>
    simp only [exec, execDdsSetf] at h
    split at h
    · cases h; exact absurd hes (frameEvents_ne_nil _ _)
    · cases h; rfl
  | ddsInit => cases h; exact absurd hes (frameEvents_ne_nil _ _)
  | _ => exact exec_sel h (by simp [opOf])

theorem performWord_sel_of_silent {c : Word64} {s t : State} (h : performWord c s = .next t)
    (hes : t.emitted = []) : t.sel = s.sel := by
  unfold performWord at h
  split at h
  · exact exec_sel_of_silent h hes
  · cases h; rfl

/-! ## SEL at a clock edge -/

/-- Acceptance leaves SEL, even where the command is complete at once: only a command without events can be. -/
theorem begin_sel {c : Word64} {s t : State} (h : performWord c s = .next t) : (State.begin c t s).sel = s.sel := by
  rw [begin_eq_startAfter]
  rcases startAfter_cases (latencyOf s.cfg t.rsp) t.emitted (commitOf t) (s.accepting c t.emitted) with
    ⟨j, hgo, -⟩ | ⟨hes, hdone⟩
  · rw [hgo]
    rfl
  · have hsel := performWord_sel_of_silent h hes
    rw [hdone]
    exact hsel

/-- At an edge of the command engine SEL stays, or the command in progress completes (R199, R237). -/
theorem commandEdge_sel {p : PortIn} {s u : State} (hu : s.commandEdge p = .next u) :
    u.sel = s.sel ∨ ∃ j, s.eng = .exec j ∧ u = s.countGap.complete j.commit := by
  rcases commandEdge_cases p s with ⟨-, -, e⟩ | ⟨-, -, t, ht, e⟩ | ⟨j, he, e⟩ | ⟨-, -, e⟩ | ⟨-, -, e⟩ <;>
    rw [e] at hu <;> cases hu
  · exact .inl rfl
  · exact .inl (begin_sel ht)
  · rcases advance_goesOn_or_completes j s.countGap with hgo | hdone
    · exact .inl hgo.sel
    · exact .inr ⟨j, he, hdone⟩
  · exact .inl rfl
  · exact .inl rfl

/-- Settles O52: reset apart, SEL moves only where a command in progress completes, and the invariant says of its completion that it
moves SEL only for a DDS command answered OK. -/
theorem selectorChangesOnlyAtCompletion : Obligations.SelectorChangesOnlyAtCompletion := by
  intro s t h hstep hne
  rcases step_next_cases h.beenReset hstep with ⟨hr, -⟩ | ⟨-, u, hu, rfl⟩
  · exact .inl hr
  · rcases commandEdge_sel hu with hsame | ⟨j, he, rfl⟩
    · exact absurd hsame hne
    · obtain ⟨hstatus, hop⟩ := (h.job j he).sel hne
      exact .inr ⟨⟨j, he, rfl, rfl⟩, rfl, hstatus, hop⟩

end Sys2Proof.Machine
end

section
/-! PROOFS. The DDS chip (20_memory.md R61, R62) under the block's transactions with the default words: a receiver takes a frame's words back
out of its events, and the chip they reach follows SEL without a glitch (42_dds_protocol.md R198, R201). -/

namespace Sys2Proof.Machine

open Sys2Proof.Claims

/-! ## The words of a frame at the receiver (R238) -/

/-- The `n` low bits of a word as levels on the data line, most significant first (R232). -/
def levels (v : Word16) : Nat → List Bool
  | 0 => []
  | n + 1 => v.getLsbD n :: levels v n

theorem bits_eq_map_levels (v : Word16) (n : Nat) : bits v n = (levels v n).map .bit := by
  induction n with
  | zero => rfl
  | succ n ih => rw [bits, levels, List.map_cons, ih]

@[simp] theorem levels_length (v : Word16) (n : Nat) : (levels v n).length = n := by
  induction n with
  | zero => rfl
  | succ n ih => rw [levels, List.length_cons, ih]

/-- One more bit shifted in from the right. -/
theorem ushiftRight_succ_shiftIn (v : Word16) (n : Nat) :
    ((v >>> (n + 1)) <<< 1) ||| (if v.getLsbD n then 1#16 else 0#16) = v >>> n := by
  apply BitVec.eq_of_getLsbD_eq
  intro i hi
  cases i with
  | zero => cases h : v.getLsbD n <;> simp [h]
  | succ i =>
    have hbit : (if v.getLsbD n then 1#16 else 0#16).getLsbD (i + 1) = false := by split <;> simp
    rw [BitVec.getLsbD_or, hbit]
    simp [hi, Nat.add_assoc, Nat.add_comm 1]

/-- Shifting in the bits below position `n` completes the word above them. -/
theorem foldl_levels (v : Word16) (n : Nat) :
    (levels v n).foldl (fun (w : Word16) (b : Bool) => (w <<< 1) ||| (if b then 1#16 else 0#16)) (v >>> n) = v := by
  induction n with
  | zero => exact BitVec.ushiftRight_zero v
  | succ n ih => rw [levels, List.foldl_cons, ushiftRight_succ_shiftIn, ih]

theorem wordOfBits_levels (v : Word16) : wordOfBits (levels v 16) = v := by
  have hshift : v >>> 16 = 0#16 := BitVec.ushiftRight_eq_zero (Nat.le_refl 16)
  have hfold := foldl_levels v 16
  rwa [hshift] at hfold

/-- The levels of a list of words. -/
def wordLevels (ws : List Word16) : List Bool := ws.flatMap (levels · 16)

theorem flatMap_bits16 (ws : List Word16) : ws.flatMap bits16 = (wordLevels ws).map .bit := by
  simp only [wordLevels, List.map_flatMap, ← bits_eq_map_levels]
  rfl

theorem wordLevels_length (ws : List Word16) : (wordLevels ws).length = 16 * ws.length := by
  induction ws with
  | nil => rfl
  | cons w ws ih =>
    rw [wordLevels, List.flatMap_cons, List.length_append, levels_length, ← wordLevels, ih, List.length_cons]
    omega

theorem wordsOfBits_wordLevels (ws : List Word16) : wordsOfBits ws.length (wordLevels ws) = ws := by
  induction ws with
  | nil => rfl
  | cons w ws ih =>
    rw [wordLevels, List.flatMap_cons, ← wordLevels, List.length_cons, wordsOfBits,
      List.take_left' (levels_length w 16), List.drop_left' (levels_length w 16), wordOfBits_levels, ih]

theorem frameWords_wordLevels (ws : List Word16) : frameWords (wordLevels ws) = ws := by
  rw [frameWords, wordLevels_length, Nat.mul_div_cancel_left _ (by decide), wordsOfBits_wordLevels]

/-- An open frame takes in the bits. -/
theorem foldl_event_bits (bs cur : List Bool) (fs : List (List Bool)) :
    (bs.map SerialEvent.bit).foldl Receiver.event ⟨some cur, fs⟩ = ⟨some (cur ++ bs), fs⟩ := by
  induction bs generalizing cur with
  | nil => rw [List.append_nil]; rfl
  | cons b bs ih =>
    rw [List.map_cons, List.foldl_cons]
    exact (ih (cur ++ [b])).trans (by rw [List.append_assoc]; rfl)

/-- From one transaction an idle receiver has one frame, that of its words, also where the line was still low (R194, R238). -/
theorem frames_frameEvents (csN : Bool) (ws : List Word16) :
    ((frameEvents csN ws).foldl Receiver.event ⟨none, []⟩).frames = [wordLevels ws] := by
  have hopen : ((if csN then [] else [SerialEvent.csHigh]) ++ [SerialEvent.csLow]).foldl Receiver.event ⟨none, []⟩ =
      ⟨some [], []⟩ := by cases csN <;> rfl
  rw [frameEvents, List.foldl_append, List.foldl_append, hopen, flatMap_bits16, foldl_event_bits]
  rfl

theorem wordsSent_frameEvents (csN : Bool) (ws : List Word16) : wordsSent (frameEvents csN ws) = ws := by
  rw [wordsSent, frames_frameEvents, List.flatMap_singleton, frameWords_wordLevels]

theorem chipAfter_frameEvents (cfg : Config) (chip : Chip) (csN : Bool) (ws : List Word16) :
    chipAfter cfg chip (frameEvents csN ws) = ws.foldl (Chip.word cfg) chip := by
  have hwhole : (wordLevels ws).length % 16 = 0 := by rw [wordLevels_length, Nat.mul_mod_right]
  rw [chipAfter, frames_frameEvents, List.foldl_cons, List.foldl_nil, Chip.frame, if_pos hwhole,
    frameWords_wordLevels]

/-! ## The default words at the chip (R61) -/

variable {cfg : Config}

/-- The target of a frequency word is the set of its tag, and its payload the 14 bits below. -/
theorem targetOf_freqWord (h : DefaultWords cfg) (s : RegSet) (x : BitVec 14) :
    targetOf (freqTag cfg s ||| x.zeroExtend 16) = .freq s := by
  obtain ⟨hf0, hf1, -⟩ := h
  cases s <;> simp [targetOf, freqTag, hf0, hf1]

theorem payload_freqWord (h : DefaultWords cfg) (s : RegSet) (x : BitVec 14) :
    (freqTag cfg s ||| x.zeroExtend 16).extractLsb' 0 14 = x := by
  obtain ⟨hf0, hf1, -⟩ := h
  have htag : (freqTag cfg s).extractLsb' 0 14 = 0#14 := by cases s <;> simp [freqTag, hf0, hf1]
  rw [BitVec.extractLsb'_or, htag, extractLsb'_zeroExtend_low x (by decide), BitVec.zero_or]

theorem wordSel_default (h : DefaultWords cfg) (s : RegSet) :
    wordSel cfg s = match s with | .set0 => 0x2000#16 | .set1 => 0x2C00#16 := by
  obtain ⟨-, -, -, -, hb, -, hfsel, hpsel⟩ := h
  cases s <;> simp [wordSel, RegSet.bit, hb, hfsel, hpsel]

/-- W_SEL names one set by both bits and lets the output run (R61, R191). -/
theorem word_wordSel (h : DefaultWords cfg) (chip : Chip) (s : RegSet) :
    chip.word cfg (wordSel cfg s) = { chip with source := some s, held := some false, pending := none } := by
  rw [wordSel_default h]
  obtain ⟨-, -, -, -, -, hr, hfsel, hpsel⟩ := h
  cases s <;> simp [Chip.word, targetOf, sourceOf, hr, hfsel, hpsel]

theorem setFreq_pending (s : RegSet) (tw : Word28) (chip : Chip) : (chip.setFreq s tw).pending = none := by
  cases s <;> rfl

/-- The low half waits for its high half (R64). -/
theorem word_wordLo (h : DefaultWords cfg) {chip : Chip} (hp : chip.pending = none) (s : RegSet) (tw : Word28) :
    chip.word cfg (wordLo cfg s tw) = { chip with pending := some (s, tw.extractLsb' 0 14) } := by
  simp only [wordLo, Chip.word, targetOf_freqWord h, payload_freqWord h, hp]

/-- Two frequency words load the register of their set, low half first (R61, R64). -/
theorem word_wordLo_wordHi (h : DefaultWords cfg) {chip : Chip} (hp : chip.pending = none) (s : RegSet)
    (tw : Word28) : (chip.word cfg (wordLo cfg s tw)).word cfg (wordHi cfg s tw) = chip.setFreq s tw := by
  have hhalves : tw.extractLsb' 14 14 ++ tw.extractLsb' 0 14 = tw :=
    (BitVec.extractLsb'_append_extractLsb'_eq_extractLsb' (start₁ := 0) (start₂ := 14) rfl).trans
      BitVec.extractLsb'_eq_self
  rw [word_wordLo h hp]
  simp only [wordHi, Chip.word, targetOf_freqWord h, payload_freqWord h, if_pos, hhalves]
  cases s <;> rfl

/-- R193 at a chip that awaits no high half: the words of a frequency change load the set and make it the output source. -/
theorem foldl_word_updateWords (h : DefaultWords cfg) {chip : Chip} (hp : chip.pending = none) (s : RegSet)
    (tw : Word28) :
    (updateWords cfg s tw).foldl (Chip.word cfg) chip =
      { chip.setFreq s tw with source := some s, held := some false, pending := none } := by
  simp only [updateWords, List.foldl_cons, List.foldl_nil, word_wordLo_wordHi h hp, word_wordSel h]

/-- Whatever the chip held, the last word of a frequency change makes its set the output source. -/
theorem source_foldl_updateWords (h : DefaultWords cfg) (chip : Chip) (s : RegSet) (tw : Word28) :
    ((updateWords cfg s tw).foldl (Chip.word cfg) chip).source = some s := by
  simp only [updateWords, List.foldl_cons, List.foldl_nil, word_wordSel h]

/-- R198: where the other set sources the output, no word of a frequency change writes the register of the source. -/
theorem glitchFree_updateWords (h : DefaultWords cfg) {chip : Chip} (hp : chip.pending = none) {s : RegSet}
    (hs : chip.source = some s.other) (tw : Word28) : glitchFree cfg chip (updateWords cfg s tw) = true := by
  have hsel : targetOf (wordSel cfg s) = .control := by rw [wordSel_default h]; cases s <;> rfl
  have htlo : targetOf (wordLo cfg s tw) = .freq s := targetOf_freqWord h s _
  have hthi : targetOf (wordHi cfg s tw) = .freq s := targetOf_freqWord h s _
  simp [updateWords, glitchFree, htlo, hthi, hsel, word_wordLo h hp, hs]

/-- The words of DDS.INIT (R195): reset held, tuning word 0 into each set, phase 0 into each set, and set 1 as the source. -/
theorem initWords_eq_updates (c : Config) : initWords c =
    wordRst c :: wordLo c .set0 0 :: wordHi c .set0 0 :: wordLo c .set1 0 :: wordHi c .set1 0 ::
      [phaseTag c .set0, phaseTag c .set1, wordSel c .set1] := by
  simp [initWords, wordLo, wordHi]

theorem word_wordRst (h : DefaultWords cfg) (chip : Chip) :
    chip.word cfg (wordRst cfg) = { chip with source := some .set0, held := some true, pending := none } := by
  obtain ⟨-, -, -, -, hb, hr, hfsel, hpsel⟩ := h
  simp [wordRst, Chip.word, targetOf, sourceOf, hb, hr, hfsel, hpsel]

theorem word_phaseTag (h : DefaultWords cfg) (chip : Chip) :
    (chip.word cfg (phaseTag cfg .set0)).word cfg (phaseTag cfg .set1) =
      { chip with phase0 := some 0, phase1 := some 0, pending := none } := by
  obtain ⟨-, -, hp0, hp1, -⟩ := h
  simp [phaseTag, Chip.word, targetOf, hp0, hp1]

/-- R195: DDS.INIT brings any chip to one and the same state. -/
theorem foldl_word_initWords (h : DefaultWords cfg) (chip : Chip) :
    (initWords cfg).foldl (Chip.word cfg) chip =
      { freq0 := some 0, freq1 := some 0, phase0 := some 0, phase1 := some 0, pending := none,
        source := some .set1, held := some false } := by
  rw [initWords_eq_updates]
  simp only [List.foldl_cons, List.foldl_nil, word_wordRst h, word_wordLo_wordHi h, setFreq_pending,
    word_phaseTag h, word_wordSel h]
  rfl

/-! ## The commands at the chip -/

theorem ddsUpdate_resultSet (s : State) (c : Word64) (tw : Nat) :
    (rspResult ((s.accept c).ddsUpdate tw).rsp).toNat / 2 ^ 32 = setNumber s.sel := by
  have htw := (BitVec.ofNat 28 tw).isLt
  rw [ddsUpdate_rsp, rspResult_rspWord_ok, updateResult_toNat]
  omega

/-- What a frequency change of an initialised block sends, and what the next one starts from (R193, R196, R197). -/
theorem exec_change_emitted {i : Instr} {tw : Nat} {s : State} (h : isChange s.cfg.ratio tw i)
    (hi : s.inited = true) : ∃ t, exec i s = .next t ∧
      t.emitted = frameEvents s.csN (updateWords s.cfg s.sel (BitVec.ofNat 28 tw)) ∧
      (rspResult t.rsp).toNat / 2 ^ 32 = setNumber s.sel ∧ t.sel = s.sel.other ∧ t.inited = true ∧ t.cfg = s.cfg := by
  have hexec := exec_change_eq_ddsUpdate h hi
  obtain ⟨-, -, -, hcfg, -⟩ := exec_unchanged hexec
  exact ⟨_, hexec, ddsUpdate_emitted s _ tw, ddsUpdate_resultSet s _ tw, rfl,
    (State.ddsUpdate_inited _ tw).trans hi, hcfg⟩

/-- Settles O27: each change answers and makes the source the set that SEL named, and the first one flips SEL. -/
theorem consecutiveChangesAlternateTheSet : Obligations.ConsecutiveChangesAlternateTheSet := by
  intro i i' tw tw' s chip hi hw h h'
  obtain ⟨t, hexec, hes, hset, hsel, hit, hcfg⟩ := exec_change_emitted h hi
  rw [← hcfg] at h'
  obtain ⟨u, hexec', hes', hset', -⟩ := exec_change_emitted h' hit
  rw [hcfg, hsel] at hes'
  rw [hsel] at hset'
  refine ⟨t, u, hexec, hexec', by rw [hset, hset', setNumber_other], ⟨s.sel, ?_, hset.symm⟩,
    ⟨s.sel.other, ?_, hset'.symm⟩⟩
  · rw [hes, chipAfter_frameEvents, source_foldl_updateWords hw]
  · rw [hes', chipAfter_frameEvents, source_foldl_updateWords hw]

theorem other_other (s : RegSet) : s.other.other = s := by cases s <;> rfl

theorem activeSet_of_inited {s : State} (hi : s.inited = true) : s.activeSet = some s.sel.other := if_pos hi

theorem setFreq_freq (s : RegSet) (tw : Word28) (chip : Chip) :
    (chip.setFreq s tw).freq s = some tw ∧ (chip.setFreq s tw).freq s.other = chip.freq s.other := by
  cases s <;> exact ⟨rfl, rfl⟩

/-- Settles O28: DDS.INIT's words bring any chip to one state; a change's words go to the set that is not the source, and the last one
makes that set the source, which SEL's flip says of the block too. -/
theorem frequencyChangesAreGlitchFree : Obligations.FrequencyChangesAreGlitchFree := by
  intro s chip hw
  refine ⟨⟨_, exec_ddsInit s, ?_, rfl⟩, fun i tw h hi hsource hpending => ?_⟩
  · rw [initialised_emitted, chipAfter_frameEvents, foldl_word_initWords hw]
    rfl
  · obtain ⟨t, hexec, hes, -, hsel, hit, -⟩ := exec_change_emitted h hi
    rw [activeSet_of_inited hi] at hsource
    have hactive : t.activeSet = some s.sel := by rw [activeSet_of_inited hit, hsel, other_other]
    have hloaded := setFreq_freq s.sel (BitVec.ofNat 28 tw) chip
    refine ⟨t, hexec, ?_⟩
    rw [hes, wordsSent_frameEvents, chipAfter_frameEvents, foldl_word_updateWords hw hpending]
    exact ⟨glitchFree_updateWords hw hpending hsource _, hactive.symm, rfl, hloaded⟩

end Sys2Proof.Machine
end

section
/-! PROOFS. What SBL.SEND and SBL.CS send and answer (43_serial_link.md R232, R241, R242), and how long the events of a command last
(R244). -/

namespace Sys2Proof.Machine

/-! ## A command that emits events and answers OK -/

theorem emit_respond_rsp (i : Instr) (s : State) (es : List SerialEvent) :
    (((s.accept (encode i)).emit es).respond .ok 0#40).rsp = rspWord (opOf i) .ok 0#40 := by
  rw [State.respond_rsp, State.emit_cmd, State.accept_cmd, cmdOp_encode]

theorem emit_respond_lines (c : Word64) (s : State) (es : List SerialEvent) :
    (((s.accept c).emit es).respond .ok 0#40).lines = es.foldl Lines.event s.lines :=
  foldl_perform_lines (s.accept c) es

/-! ## SBL.SEND -/

/-- R232: the list `bits(v, w)` by the place of each bit in it. -/
theorem bits_eq_map_range (v : Word16) (w : Nat) :
    bits v w = (List.range w).map (fun k => SerialEvent.bit (v.getLsbD (w - 1 - k))) := by
  induction w with
  | zero => rfl
  | succ n ih =>
    rw [bits, ih, List.range_succ_eq_map, List.map_cons, List.map_map]
    refine congrArg _ (List.map_congr_left fun k _ => ?_)
    rw [Function.comp_apply, show n + 1 - 1 - (k + 1) = n - 1 - k by omega]

/-- Bits leave CS_N alone, SCLK high and SDATA at the last of them (R230). -/
theorem foldl_event_bits_lines (v : Word16) (n : Nat) (l : Lines) :
    (bits v (n + 1)).foldl Lines.event l = ⟨l.csN, true, v.getLsbD 0⟩ := by
  induction n generalizing l with
  | zero => rfl
  | succ n ih => rw [bits, List.foldl_cons, ih]; rfl

/-- Settles O29: `bits(v, w)` lists the bits from w - 1 down, and the last of them is bit 0. -/
theorem sblSendSendsTheBitsMostSignificantFirst : Obligations.SblSendSendsTheBitsMostSignificantFirst := by
  intro w v s hw _
  obtain ⟨n, rfl⟩ := Nat.exists_eq_add_of_le' hw
  have hlines := (emit_respond_lines (encode (.sblSend (n + 1) v)) s _).trans (foldl_event_bits_lines v n s.lines)
  have hrsp : rspWord 0x8#4 .ok 0#40 = 0x8000000000000000#64 := by decide
  exact ⟨_, rfl, bits_eq_map_range v (n + 1), (emit_respond_rsp (.sblSend (n + 1) v) s _).trans hrsp,
    congrArg Lines.csN hlines, congrArg Lines.sclk hlines, congrArg Lines.sdata hlines⟩

/-! ## SBL.CS -/

/-- The events of SBL.CS are the edge to the level asked for, where the line is not there (R242). -/
theorem csEvents_eq (l csN : Bool) :
    csEvents l csN = if csN = l then [if l then SerialEvent.csLow else SerialEvent.csHigh] else [] := by
  cases l <;> cases csN <;> rfl

theorem foldl_event_csEvents_csN (l : Bool) (x : Lines) : ((csEvents l x.csN).foldl Lines.event x).csN = !l := by
  obtain ⟨csN, sclk, sdata⟩ := x
  cases l <;> cases csN <;> rfl

/-- Settles O30: the one edge leads to the level asked for, and without it the line is there. -/
theorem sblCsDrivesChipSelect : Obligations.SblCsDrivesChipSelect := by
  intro l s
  have hlines := emit_respond_lines (encode (.sblCs l)) s (csEvents l s.csN)
  have hcs := (congrArg Lines.csN hlines).trans (foldl_event_csEvents_csN l s.lines)
  have hrsp : rspWord 0x9#4 .ok 0#40 = 0x9000000000000000#64 := by decide
  exact ⟨_, rfl, hcs, (emit_respond_rsp (.sblCs l) s _).trans hrsp, csEvents_eq l s.csN⟩

/-! ## The cycles of a command's events (R244) -/

/-- Bits take D_BIT cycles each, whatever the count and the level of CS_N (R233). -/
theorem eventsDuration_bits (c : Config) (gap : Nat) (cs : Bool) (bs : List Bool) :
    eventsDuration c gap cs (bs.map .bit) = bs.length * c.dBit := by
  induction bs generalizing gap with
  | nil => exact (Nat.zero_mul _).symm
  | cons b bs ih => rw [List.map_cons, eventsDuration, ih, List.length_cons, Nat.succ_mul, Nat.add_comm]

/-- While CS_N is low the count stays at 0, so the events after the bits take what they take from there (R236). -/
theorem eventsDuration_bits_append (c : Config) (bs : List Bool) (es : List SerialEvent) :
    eventsDuration c 0 false (bs.map .bit ++ es) = bs.length * c.dBit + eventsDuration c 0 false es := by
  induction bs with
  | nil => rw [List.length_nil, Nat.zero_mul, Nat.zero_add]; rfl
  | cons b bs ih =>
    rw [List.map_cons, List.cons_append, eventsDuration, if_neg Bool.false_ne_true, ih, List.length_cons, Nat.succ_mul]
    omega

/-- The fall of CS_N, the bits of the words, and its rise. -/
theorem eventsDuration_frame_high (c : Config) (gap : Nat) (ws : List Word16) :
    eventsDuration c gap true (frameEvents true ws) =
      (c.tGap - gap) + c.tCss + ws.length * 16 * c.dBit + c.tCsh + 1 := by
  have hwords : eventsDuration c 0 false (ws.flatMap bits16 ++ [.csHigh]) = ws.length * 16 * c.dBit + (c.tCsh + 1) := by
    rw [flatMap_bits16, eventsDuration_bits_append, wordLevels_length, Nat.mul_comm 16]
    rfl
  have hframe : eventsDuration c gap true (frameEvents true ws) =
      (c.tGap - gap) + c.tCss + eventsDuration c 0 false (ws.flatMap bits16 ++ [.csHigh]) := rfl
  rw [hframe, hwords]
  omega

/-- Where a frame is open its close comes first, and CS_N has then been high for one cycle (R194, R235, R236). -/
theorem eventsDuration_frame_low (c : Config) (ws : List Word16) :
    eventsDuration c 0 false (frameEvents false ws) =
      c.tCsh + 1 + eventsDuration c (min c.tGap 1) true (frameEvents true ws) := rfl

/-- Settles O31: the durations of bits and of frames at either level; the rows of SBL.CS are those of one edge or none. -/
theorem eventDurationsAreThoseOfTheTable : Obligations.EventDurationsAreThoseOfTheTable := by
  intro c gap hc _
  refine ⟨fun v w cs => ?_, rfl, rfl, rfl, rfl, fun ws => ⟨eventsDuration_frame_high c gap ws, ?_⟩⟩
  · rw [bits_eq_map_levels, eventsDuration_bits, levels_length]
    rfl
  · rw [eventsDuration_frame_low, Nat.min_eq_right hc.tGap_pos, eventsDuration_frame_high]
    rfl

end Sys2Proof.Machine
end

section
/-! PROOFS. The waveforms of the serial link, cycle by cycle (43_serial_link.md R233, R236, R238): the gap of CS_N, the levels of SDATA
around an edge, and the low pulse of SCLK in a bit. -/

namespace Sys2Proof.Machine

/-! ## Runs without reset -/

/-- What every cycle without reset takes from its number `n` to the next, up to `N`, holds of a whole run from there. -/
theorem runCycles_of_step {P : Nat → State → Prop} {N : Nat}
    (hstep : ∀ n s, n < N → P n s → s.input.rst = false → ∃ u, step s = .next u ∧ P (n + 1) u)
    {m n : Nat} {s : State} (hm : n + m ≤ N) (h : P n s) (hr : NoReset m s) :
    ∃ u, runCycles m s = .next u ∧ P (n + m) u := by
  induction m generalizing n s with
  | zero => exact ⟨s, rfl, h⟩
  | succ m ih =>
    obtain ⟨t, ht, hP⟩ := hstep n s (by omega) h hr.head
    obtain ⟨u, hu, hPu⟩ := ih (n := n + 1) (by omega) hP (hr.tail ht)
    exact ⟨u, (runCycles_succ ht m).trans hu, by rwa [← Nat.add_assoc, Nat.add_right_comm]⟩

/-! ## The gap of CS_N (R236) -/

/-- CS_N is high with GAP_CNT at `n`, in a block with configuration `c` that meets the invariant. -/
structure InGap (c : Config) (n : Nat) (s : State) : Prop where
  inv : Inv s
  cfg : s.cfg = c
  csN : s.csN = true
  count : s.gapCnt = n

/-- Before the count would reach T_GAP, CS_N stays high and the count goes up by one. -/
theorem InGap.step {c : Config} {n : Nat} {s : State} (h : InGap c n s) (hn : n + 1 < c.tGap)
    (hr : s.input.rst = false) : ∃ u, step s = .next u ∧ InGap c (n + 1) u := by
  obtain ⟨hinv, rfl, hcs, rfl⟩ := h
  obtain ⟨u, hu, hhigh, -, hfall⟩ := gapCounterCountsHighCycles s hinv hr
  have hcsu : u.csN = true := by
    by_contra hlow
    have hfull := (hfall hcs (Bool.eq_false_iff.mpr hlow)).1
    omega
  exact ⟨u, hu, everyStepKeepsTheInvariant s u hinv hu, step_cfg hu, hcsu,
    (hhigh hcs hcsu).trans (Nat.min_eq_right hn.le)⟩

/-- Settles O33: the law of GAP_CNT for one cycle, over the cycles of a run. -/
theorem chipSelectStaysHighForTheGap : Obligations.ChipSelectStaysHighForTheGap := by
  intro s m hinv hcs hgap hm hr
  obtain ⟨u, hu, h⟩ := runCycles_of_step (P := InGap s.cfg) (N := s.cfg.tGap - 1)
    (fun n t hn ht hrt => ht.step (by omega) hrt) (by omega) ⟨hinv, rfl, hcs, hgap⟩ hr
  exact ⟨u, hu, h.csN, h.count.trans (Nat.zero_add m)⟩

/-! ## SDATA moves only while SCLK is high (R233, R238) -/

/-- From `s` to `u` SDATA stays, or SCLK is high before and after. -/
def SdataStep (s u : State) : Prop := u.sdata = s.sdata ∨ (s.sclk = true ∧ u.sclk = true)

/-- The begin of an event, or the completion, has no edge of SCLK (R233-R235). -/
theorem nextEvent_sclk (s : State) (es : List SerialEvent) (k : Commit) : (s.nextEvent es k).sclk = s.sclk := by
  cases es with
  | nil => rfl
  | cons e es =>
    obtain ⟨p, left, h⟩ := startEvent_eq s e es k
    rw [State.nextEvent, h]

/-- So with SCLK high SDATA may move there. -/
theorem sdataStep_nextEvent {s : State} (h : s.sclk = true) (es : List SerialEvent) (k : Commit) :
    SdataStep s (s.nextEvent es k) :=
  .inr ⟨h, (nextEvent_sclk s es k).trans h⟩

theorem sdataStep_endPhase {s : State} {p : Phase} (h : phaseOk s.cfg s.lines p 0) (es : List SerialEvent)
    (k : Commit) : SdataStep s (s.endPhase p es k) := by
  cases p with
  | bitSetup b => exact .inl rfl
  | bitLow b => exact .inl rfl
  | csHold => exact .inl rfl
  | gapWait => exact sdataStep_nextEvent h.1 (.csLow :: es) k
  | bitHigh b => exact sdataStep_nextEvent h.1 es k
  | csSelected => exact sdataStep_nextEvent h.1 es k
  | csReleased => exact sdataStep_nextEvent h.1 es k

theorem sdataStep_advance {s : State} {j : Job} (h : posOk s.cfg s.lines j.pos) : SdataStep s (s.advance j) := by
  obtain ⟨pos, es, k⟩ := j
  match pos with
  | .latency 0 => exact sdataStep_nextEvent h es k
  | .latency (n + 1) => exact .inl rfl
  | .inEvent p 0 => exact sdataStep_endPhase h es k
  | .inEvent p (n + 1) => exact .inl rfl

theorem sdataStep_startAfter {s : State} (h : s.sclk = true) (lat : Nat) (es : List SerialEvent) (k : Commit) :
    SdataStep s (s.startAfter lat es k) := by
  cases lat with
  | zero => exact sdataStep_nextEvent h es k
  | succ n => exact .inl rfl

theorem sdataStep_commandEdge {p : PortIn} {s u : State} (h : Inv s) (hu : s.commandEdge p = .next u) :
    SdataStep s u := by
  rcases commandEdge_cases p s with ⟨-, -, e⟩ | ⟨he, -, t, -, e⟩ | ⟨j, he, e⟩ | ⟨-, -, e⟩ | ⟨-, -, e⟩ <;>
    rw [e] at hu <;> cases hu
  · exact .inl rfl
  · rw [begin_eq_startAfter]
    exact sdataStep_startAfter (s := s.accepting p.cmdData t.emitted) (h.clockHigh (.inl he)) _ _ _
  · exact sdataStep_advance (s := s.countGap) (h.job j he).pos
  · exact .inl rfl
  · exact .inl rfl

/-- Settles O35: SDATA moves only where an event begins, which is where no bit is in progress or one is in its last phase. -/
theorem sdataChangesOnlyWhileClockHigh : Obligations.SdataChangesOnlyWhileClockHigh := by
  intro s h hr
  obtain ⟨u, hu, hstep⟩ := step_of_noReset h.beenReset hr
  exact ⟨_, hstep, (sdataStep_commandEdge h hu).resolve_left⟩

/-! ## A bit is one low pulse of SCLK (R233) -/

/-- Cycle `n` of a `Bit(b)` event has phase `p`, with `left` cycles of it to come, and level `clk` of SCLK (R233). -/
inductive BitPhase (c : Config) (b : Bool) (n : Nat) : Phase → Nat → Bool → Prop
  | setup {left : Nat} : n + left + 1 = c.tSu → BitPhase c b n (.bitSetup b) left true
  | low {left : Nat} : n + left + 1 = c.tSu + c.tLo → left < c.tLo → BitPhase c b n (.bitLow b) left false
  | high {left : Nat} : n + left + 1 = c.dBit → left < c.tHi → BitPhase c b n (.bitHigh b) left true

/-- The event after a bit has begun, or after the last one the command is complete (R237). -/
inductive EventOver (k : Commit) (s : State) : List SerialEvent → Prop
  | complete : s.eng = .resp → s.rsp = k.rsp → EventOver k s []
  | begun {e : SerialEvent} {es : List SerialEvent} {p : Phase} {left : Nat} :
      s.eng = .exec ⟨.inEvent p left, es, k⟩ → EventOver k s (e :: es)

/-- State `s` is in cycle `n` of a `Bit(b)` event at level `csN` of CS_N, after which `es` and then the completion `k` come; or the event
is over. -/
inductive BitCourse (c : Config) (b csN : Bool) (es : List SerialEvent) (k : Commit) (n : Nat) (s : State) : Prop
  | during {p : Phase} {left : Nat} {clk : Bool} (phase : BitPhase c b n p left clk) (cfg : s.cfg = c)
      (beenReset : s.beenReset = true) (eng : s.eng = .exec ⟨.inEvent p left, es, k⟩) (lines : s.lines = ⟨csN, clk, b⟩)
  | ended (last : n = c.dBit) (clock : s.sclk = true) (next : EventOver k s es)

section

variable {c : Config} {b csN : Bool} {es : List SerialEvent} {k : Commit} {n : Nat} {s : State}

theorem BitPhase.lt_dBit {p : Phase} {left : Nat} {clk : Bool} (h : BitPhase c b n p left clk) : n < c.dBit := by
  cases h with
  | setup hn => unfold Config.dBit; omega
  | low hn _ => unfold Config.dBit; omega
  | high hn _ => omega

/-- SCLK is low in the T_LO cycles after the first T_SU. -/
theorem BitPhase.clk_eq_false_iff {p : Phase} {left : Nat} {clk : Bool} (h : BitPhase c b n p left clk) :
    clk = false ↔ c.tSu ≤ n ∧ n < c.tSu + c.tLo := by
  cases h with
  | setup hn => simp; omega
  | low hn _ => simp; omega
  | high hn _ => unfold Config.dBit at hn; simp; omega

theorem eventOver_nextEvent (s : State) (es : List SerialEvent) (k : Commit) : EventOver k (s.nextEvent es k) es := by
  cases es with
  | nil => exact .complete rfl rfl
  | cons e es =>
    obtain ⟨p, left, h⟩ := startEvent_eq s e es k
    exact .begun (congrArg State.eng h)

/-- The debounce engine and the environment do not touch a bit in progress. -/
theorem BitCourse.debounceEdge_passCycle (h : BitCourse c b csN es k n s) (p : PortIn) :
    BitCourse c b csN es k n (s.debounceEdge p).passCycle := by
  cases h with
  | during hp hcfg hb he hl => exact .during hp hcfg hb he hl
  | ended hn hclk hnext =>
    refine .ended hn hclk ?_
    cases hnext with
    | complete he hrsp => exact .complete he hrsp
    | begun he => exact .begun he

/-- The last cycle of a phase of a bit leads to the first one of the next phase, or the bit is over. -/
theorem bitCourse_endPhase (hc : c.Legal) {p : Phase} {clk : Bool} (hp : BitPhase c b n p 0 clk) (hcfg : s.cfg = c)
    (hb : s.beenReset = true) (hl : s.lines = ⟨csN, clk, b⟩) :
    BitCourse c b csN es k (n + 1) (s.endPhase p es k) := by
  obtain ⟨hcs, hclk, hdata⟩ := Lines.mk.inj hl
  subst hcfg
  cases hp with
  | setup hn =>
    have hlo := hc.tLo_pos
    refine .during (.low (left := s.cfg.tLo - 1) ?_ ?_) rfl hb rfl (congrArg₂ (Lines.mk · false ·) hcs hdata)
    · omega
    · omega
  | low hn _ =>
    have hhi := hc.tHi_pos
    refine .during (.high (left := s.cfg.tHi - 1) ?_ ?_) rfl hb rfl (congrArg₂ (Lines.mk · true ·) hcs hdata)
    · unfold Config.dBit; omega
    · omega
  | high hn _ => exact .ended hn ((nextEvent_sclk s es k).trans hclk) (eventOver_nextEvent s es k)

/-- A phase of a bit that lasts another cycle. -/
theorem BitPhase.hold {p : Phase} {left : Nat} {clk : Bool} (h : BitPhase c b n p (left + 1) clk) :
    BitPhase c b (n + 1) p left clk := by
  cases h with
  | setup hn => exact .setup (by omega)
  | low hn hlt => exact .low (by omega) (by omega)
  | high hn hlt => exact .high (by omega) (by omega)

/-- A cycle takes a bit in progress to its next cycle, or to its end. -/
theorem BitCourse.step (hc : c.Legal) (h : BitCourse c b csN es k n s) (hn : n < c.dBit) (hr : s.input.rst = false) :
    ∃ u, step s = .next u ∧ BitCourse c b csN es k (n + 1) u := by
  cases h with
  | ended hlast _ _ => exact absurd hlast hn.ne
  | @during p left clk hp hcfg hb he hl =>
    refine ⟨_, step_of_exec he hr hb, BitCourse.debounceEdge_passCycle ?_ s.input⟩
    cases left with
    | zero => exact bitCourse_endPhase (s := s.countGap) hc hp hcfg hb hl
    | succ left => exact .during hp.hold hcfg hb rfl hl

end

/-- Settles O32: the run from the bit's first cycle through its three phases, whose levels `BitPhase` gives, to its end. -/
theorem bitEventIsOneLowPulse : Obligations.BitEventIsOneLowPulse := by
  intro s b es k hc hb he hclk hdata hr
  have hsu := hc.tSu_pos
  have hstart : BitCourse s.cfg b s.csN es k 0 s :=
    .during (.setup (by omega)) rfl hb he (congrArg₂ (Lines.mk s.csN) hclk hdata)
  have hrun (m : Nat) (hm : m ≤ s.cfg.dBit) : ∃ u, runCycles m s = .next u ∧ BitCourse s.cfg b s.csN es k m u := by
    have h := runCycles_of_step (fun n t hn ht => ht.step hc hn) (m := m) (by omega) hstart
      (fun n hn => hr n (hn.trans_le hm))
    rwa [Nat.zero_add] at h
  refine ⟨fun m hm => ?_, ?_⟩
  · obtain ⟨u, hu, h⟩ := hrun m hm.le
    cases h with
    | ended hlast _ _ => exact absurd hlast hm.ne
    | during hp _ _ heu hl =>
      obtain ⟨hcs, hclk, hdata⟩ := Lines.mk.inj hl
      exact ⟨u, hu, hdata, hcs, by rw [hclk, hp.clk_eq_false_iff], by rw [heu]; exact nofun⟩
  · obtain ⟨u, hu, h⟩ := hrun _ le_rfl
    cases h with
    | during hp _ _ _ _ => exact absurd hp.lt_dBit (lt_irrefl _)
    | ended _ hclk hnext =>
      refine ⟨u, hu, hclk, ?_⟩
      cases hnext with
      | complete heu hrsp => exact ⟨heu, hrsp⟩
      | begun heu => exact ⟨_, _, heu⟩

end Sys2Proof.Machine
end

section
/-! PROOFS. The debounce filter (44_debounce.md): the update is monotone in the accumulator, so runs of ticks are bounded by the runs from
the ends of ACC's range (R276-R278); a cycle's tick, DEB.READ, and what the debounce engine sees of the block (R272-R275, R279). -/

namespace Sys2Proof.Machine

open Sys2Proof.Claims

/-! ## The filter update (R272, R273) -/

theorem debFilter_asserted (acc : Nat) : debFilter acc 0xFF = acc - acc / 8 + 31 := by
  simp [debFilter, Nat.shiftRight_eq_div_pow]

theorem debFilter_released (acc : Nat) : debFilter acc 0x00 = acc - acc / 8 := by
  simp [debFilter, Nat.shiftRight_eq_div_pow]

theorem debFilter_mono (sample : Nat) : Monotone (debFilter · sample) := by
  intro a b h
  simp only [debFilter, Nat.shiftRight_eq_div_pow]
  omega

/-- Settles O37: the difference is at most 224 up to 255, and a sample adds at most 31 to it. -/
theorem filterUpdateStaysInEightBits : Obligations.FilterUpdateStaysInEightBits := by
  intro acc h
  have hdiff : acc - acc / 8 ≤ 224 := by omega
  rw [debFilter_asserted, debFilter_released, Nat.shiftRight_eq_div_pow]
  exact ⟨hdiff, by omega, by omega⟩

/-! ## Constant samples (R278) -/

theorem filtered_mono (sample n : Nat) : Monotone (filtered sample n) := by
  induction n with
  | zero => exact monotone_id
  | succ n ih => exact ih.comp (debFilter_mono sample)

/-- Updates that come nearer to a target, by a measure, for as long as they have not reached it, reach it. -/
theorem exists_filtered_eq {sample target : Nat} {P : Nat → Prop} (μ : Nat → Nat)
    (hstep : ∀ a, P a → a ≠ target → P (debFilter a sample) ∧ μ (debFilter a sample) < μ a) {acc : Nat}
    (h : P acc) : ∃ n, filtered sample n acc = target := by
  induction hm : μ acc using Nat.strong_induction_on generalizing acc with
  | _ m ih =>
    by_cases heq : acc = target
    · exact ⟨0, heq⟩
    · obtain ⟨hP, hlt⟩ := hstep acc h heq
      obtain ⟨n, hn⟩ := ih _ (hm ▸ hlt) hP rfl
      exact ⟨n + 1, hn⟩

/-- Settles O42: below 248 an asserted sample raises ACC, never past 248; above 7 a released one lowers it, never past 7. -/
theorem filterSettlesAtItsFixedPoints : Obligations.FilterSettlesAtItsFixedPoints := by
  refine ⟨fun acc h h' => ?_, fun acc h => ?_, fun acc h => ?_, fun acc h _ => ?_, fun acc h => ?_⟩
  · rw [debFilter_asserted]; omega
  · rw [debFilter_released]; omega
  · refine exists_filtered_eq (P := (· ≤ 248)) (248 - ·) (fun a ha hne => ?_) h
    rw [debFilter_asserted]
    constructor <;> omega
  · refine exists_filtered_eq (P := (7 ≤ ·)) id (fun a ha hne => ?_) h
    rw [debFilter_released]
    constructor
    · omega
    · simp only [id]; omega
  · rw [debFilter_asserted, debFilter_released]
    constructor <;> omega

/-! ## Consecutive ticks (R276, R277) -/

theorem afterTicks_succ (c : Config) (asserted : Bool) (n : Nat) (x : BitVec 8 × Bool) :
    afterTicks c asserted (n + 1) x =
      debTick c (afterTicks c asserted n x).1 (afterTicks c asserted n x).2 asserted := by
  induction n generalizing x with
  | zero => rfl
  | succ n ih => exact ih (debTick c x.1 x.2 asserted)

/-- Over consecutive ticks ACC is the exact filter's value (R273), whatever PUB and the thresholds are. -/
theorem afterTicks_acc (c : Config) (asserted : Bool) (n : Nat) (x : BitVec 8 × Bool) :
    (afterTicks c asserted n x).1.toNat = filtered (sampleOf asserted) n x.1.toNat := by
  induction n generalizing x with
  | zero => rfl
  | succ n ih => exact (ih _).trans (congrArg _ (debTick_acc c x.1 x.2 asserted))

/-- The updated accumulator is beyond the threshold at which PUB, now `pub`, changes (R274). -/
def Crosses (c : Config) (a : Nat) : Bool → Prop
  | false => c.thHi < a
  | true => a < c.thLo

theorem hysteresis_of_crosses {c : Config} {a : Nat} {pub : Bool} (h : Crosses c a pub) :
    hysteresis c a pub = !pub := by
  cases pub <;> simp_all [Crosses, hysteresis]

theorem hysteresis_of_not_crosses {c : Config} {a : Nat} {pub : Bool} (h : ¬ Crosses c a pub) :
    hysteresis c a pub = pub := by
  cases pub <;> simp_all [Crosses, hysteresis]

section
variable {c : Config} {asserted pub : Bool} {acc : BitVec 8}

theorem afterTicks_succ_pub (n : Nat) : (afterTicks c asserted (n + 1) (acc, pub)).2 =
    hysteresis c (filtered (sampleOf asserted) (n + 1) acc.toNat) (afterTicks c asserted n (acc, pub)).2 := by
  rw [← afterTicks_acc c asserted (n + 1) (acc, pub), afterTicks_succ, debTick_pub]

/-- PUB stays while ACC crosses no threshold. -/
theorem afterTicks_pub_of_not_crosses {n : Nat}
    (h : ∀ k, k < n → ¬ Crosses c (filtered (sampleOf asserted) (k + 1) acc.toNat) pub) :
    (afterTicks c asserted n (acc, pub)).2 = pub := by
  induction n with
  | zero => rfl
  | succ n ih =>
    rw [afterTicks_succ_pub, ih fun k hk => h k (hk.trans n.lt_succ_self)]
    exact hysteresis_of_not_crosses (h n n.lt_succ_self)

/-- Where ACC is beyond the threshold after a tick, PUB has changed by then: in this tick, if not before. -/
theorem exists_afterTicks_pub_of_crosses {n : Nat}
    (h : Crosses c (filtered (sampleOf asserted) (n + 1) acc.toNat) pub) :
    ∃ m, m ≤ n + 1 ∧ (afterTicks c asserted m (acc, pub)).2 = !pub := by
  by_cases hn : (afterTicks c asserted n (acc, pub)).2 = pub
  · exact ⟨n + 1, le_rfl, by rw [afterTicks_succ_pub, hn, hysteresis_of_crosses h]⟩
  · exact ⟨n, n.le_succ, Bool.eq_not.mpr hn⟩

/-- PUB changes in exactly the tick after which ACC is beyond the threshold for the first time. -/
theorem afterTicks_pub_of_first_crosses {n : Nat}
    (hbefore : ∀ k, k < n → ¬ Crosses c (filtered (sampleOf asserted) (k + 1) acc.toNat) pub)
    (h : Crosses c (filtered (sampleOf asserted) (n + 1) acc.toNat) pub) :
    (∀ m, m < n + 1 → (afterTicks c asserted m (acc, pub)).2 = pub) ∧
      (afterTicks c asserted (n + 1) (acc, pub)).2 = !pub := by
  have hstays (m : Nat) (hm : m < n + 1) : (afterTicks c asserted m (acc, pub)).2 = pub :=
    afterTicks_pub_of_not_crosses fun k hk => hbefore k (hk.trans_le (Nat.le_of_lt_succ hm))
  exact ⟨hstays, by rw [afterTicks_succ_pub, hstays n n.lt_succ_self, hysteresis_of_crosses h]⟩

end

/-! ## The runs of R276 and R277 -/

theorem le_filtered_eight_asserted (acc : Nat) : 164 ≤ filtered 0xFF 8 acc :=
  calc 164 = filtered 0xFF 8 0 := rfl
    _ ≤ filtered 0xFF 8 acc := filtered_mono 0xFF 8 acc.zero_le

theorem filtered_asserted_le {acc k : Nat} (h : acc ≤ 7) (hk : k < 7) : filtered 0xFF (k + 1) acc ≤ 160 := by
  have hseven : ∀ k < 7, filtered 0xFF (k + 1) 7 ≤ 160 := by decide
  exact (filtered_mono 0xFF (k + 1) h).trans (hseven k hk)

theorem filtered_eight_released_le {acc : Nat} (h : acc ≤ 255) : filtered 0x00 8 acc ≤ 91 :=
  calc filtered 0x00 8 acc ≤ filtered 0x00 8 255 := filtered_mono 0x00 8 h
    _ = 91 := rfl

theorem le_filtered_released {acc k : Nat} (h : 248 ≤ acc) (hk : k < 7) : 96 ≤ filtered 0x00 (k + 1) acc := by
  have hstart : ∀ k < 7, 96 ≤ filtered 0x00 (k + 1) 248 := by decide
  exact (hstart k hk).trans (filtered_mono 0x00 (k + 1) h)

/-- Settles O40: a run from any ACC is bounded by the run from 0, one from at most 7 also by the run from 7. -/
theorem eightAssertedTicksAssert : Obligations.EightAssertedTicksAssert := by
  have hcross (c : Config) (acc : BitVec 8) (hc : c.thHi ≤ 163) :
      Crosses c (filtered (sampleOf true) 8 acc.toNat) false :=
    Nat.lt_of_le_of_lt hc (le_filtered_eight_asserted acc.toNat)
  refine ⟨fun c acc hc => ?_, fun c acc hc hacc => ?_, fun c => ?_, fun c acc x => ?_⟩
  · exact exists_afterTicks_pub_of_crosses (hcross c acc hc)
  · refine afterTicks_pub_of_first_crosses (fun k hk => ?_) (hcross c acc (by omega))
    have hle := filtered_asserted_le hacc hk
    exact Nat.not_lt.mpr (hle.trans hc.ge)
  · simp only [afterTicks_acc]
    decide
  · rw [debTick_pub, hysteresis_eq_true_iff]
    simp

/-- Settles O41: a run from any ACC is bounded by the run from 255, one from at least 248 also by the run from 248. -/
theorem eightReleasedTicksRelease : Obligations.EightReleasedTicksRelease := by
  have hcross (c : Config) (acc : BitVec 8) (hc : c.thLo = 96) :
      Crosses c (filtered (sampleOf false) 8 acc.toNat) true := by
    have hle := filtered_eight_released_le (Nat.le_of_lt_succ acc.isLt)
    exact Nat.lt_of_le_of_lt hle (by omega)
  refine ⟨fun c acc hc => ?_, fun c acc hc hacc => ?_, fun c => ⟨?_, ?_⟩⟩
  · exact exists_afterTicks_pub_of_crosses (hcross c acc hc)
  · refine afterTicks_pub_of_first_crosses (fun k hk => ?_) (hcross c acc hc)
    have hle := le_filtered_released hacc hk
    exact Nat.not_lt.mpr (hc.le.trans hle)
  · simp only [afterTicks_acc]
    decide
  · rw [← BitVec.toNat_inj, afterTicks_acc]
    decide

/-! ## The debounce engine at one clock edge (R43, R271-R275) -/

theorem sameDebounce_symm {s s' : State} (h : SameDebounce s s') : SameDebounce s' s := by
  obtain ⟨hcfg, hacc, hpub, hsync⟩ := h
  exact ⟨hcfg.symm, hacc.symm, hpub.symm, hsync.symm⟩

theorem sameDebounce_trans {s s' s'' : State} (h : SameDebounce s s') (h' : SameDebounce s' s'') :
    SameDebounce s s'' := by
  obtain ⟨hcfg, hacc, hpub, hsync⟩ := h
  obtain ⟨hcfg', hacc', hpub', hsync'⟩ := h'
  exact ⟨hcfg.trans hcfg', hacc.trans hacc', hpub.trans hpub', hsync.trans hsync'⟩

/-- The debounce engine reads its own side, `raw_in` and `deb_tick` (R271). -/
theorem sameDebounce_debounceEdge {s s' : State} {p p' : PortIn} (h : SameDebounce s s') (hraw : p.rawIn = p'.rawIn)
    (htick : p.debTick = p'.debTick) : SameDebounce (s.debounceEdge p) (s'.debounceEdge p') := by
  obtain ⟨hcfg, hacc, hpub, hsync⟩ := h
  simp [SameDebounce, State.rawAsserted, State.syncOut, *]

theorem sameDebounce_of_commandEdge {s u : State} {p : PortIn} (h : s.commandEdge p = .next u) : SameDebounce u s := by
  obtain ⟨hcfg, hacc, hpub, hsync, -⟩ := commandEdge_keeps h
  exact ⟨hcfg, hacc, hpub, hsync⟩

/-- With `rst` = 0 the debounce side of a step is the debounce engine's edge alone (R275, R305). -/
theorem sameDebounce_of_step {s t : State} (hb : s.beenReset = true) (hr : s.input.rst = false)
    (h : step s = .next t) : SameDebounce t (s.debounceEdge s.input) := by
  rcases step_next_cases hb h with ⟨hr', -⟩ | ⟨-, u, hu, rfl⟩
  · exact absurd (hr.symm.trans hr') nofun
  · exact sameDebounce_debounceEdge (sameDebounce_of_commandEdge hu) (p := s.input) rfl rfl

/-- Settles O57: a reset reads the configuration, any other edge the debounce side and its two inputs. -/
theorem commandsNeverTouchTheDebounceEngine : Obligations.CommandsNeverTouchTheDebounceEngine := by
  intro s s' t t' hb hb' hsame hrst hraw htick ht ht'
  cases hr : s.input.rst with
  | true =>
    obtain ⟨hcfg, -⟩ := hsame
    rw [step_of_reset hr] at ht
    rw [step_of_reset (hrst.symm.trans hr)] at ht'
    cases ht
    cases ht'
    simp [SameDebounce, hcfg]
  | false =>
    have hedge := sameDebounce_debounceEdge hsame hraw htick
    have hstep' := sameDebounce_of_step hb' (hrst.symm.trans hr) ht'
    exact sameDebounce_trans (sameDebounce_of_step hb hr ht) (sameDebounce_trans hedge (sameDebounce_symm hstep'))

theorem shiftSync_eq_cons_dropLast {sync : List Bool} (h : sync ≠ []) (raw : Bool) :
    shiftSync raw sync = raw :: sync.dropLast := by
  rw [shiftSync, List.dropLast_eq_take, List.take_cons (List.length_pos_iff.mpr h)]

/-- Settles O38: the step's debounce side is the engine's edge, whose tick is the filter's value and the hysteresis on it. -/
theorem tickUpdatesAccAndPub : Obligations.TickUpdatesAccAndPub := by
  intro s y hinv hr hy
  obtain ⟨t, hstep⟩ : ∃ t, step s = .next t := by
    obtain ⟨u, -, hu⟩ := step_of_noReset hinv.beenReset hr
    exact ⟨_, hu⟩
  obtain ⟨-, hacc, hpub, hsync⟩ := sameDebounce_of_step hinv.beenReset hr hstep
  refine ⟨_, hstep, ?_, fun htick => ?_, fun htick => ?_⟩
  · rw [hsync, State.debounceEdge_sync]
    exact shiftSync_eq_cons_dropLast (by rintro hnil; simp [hnil] at hy) _
  · simp [hacc, hpub, htick]
  · rw [State.debounceEdge_acc, if_pos htick] at hacc
    rw [State.debounceEdge_pub, if_pos htick, debTick_pub, ← hacc] at hpub
    refine ⟨?_, by rw [hpub, hysteresis_eq_true_iff]⟩
    have hraw : s.rawAsserted = (y == s.cfg.rawActiveHigh) := by simp [State.rawAsserted, State.syncOut, hy]
    rw [hacc, debTick_acc, hraw]
    by_cases hlevel : y = s.cfg.rawActiveHigh
    · simp [sampleOf, hlevel, debFilter_asserted]
    · simp [sampleOf, hlevel, debFilter_released]

/-! ## DEB.READ (R279) -/

theorem exec_debRead (s : State) : exec .debRead s =
    .next ((s.accept (encode .debRead)).respond .ok (BitVec.ofNat 40 (if s.pub then 1 else 0))) := by
  cases hpub : s.pub <;> simp [exec, execDebRead, hpub]

/-- Settles O36: RESULT is PUB as a number. -/
theorem debReadAnswersThePublishedState : Obligations.DebReadAnswersThePublishedState := by
  intro s
  have hresult : (if s.pub then 1 else 0) < 2 ^ 40 := by split <;> decide
  exact ⟨_, exec_debRead s, answers_respond_ok (i := .debRead) hresult,
    onlyAnswered_of_noEvents (i := .debRead) rfl (exec_debRead s)⟩

end Sys2Proof.Machine
end

section
/-! PROOFS. The errors of 60_exceptions.md: every word is answered with the first status that applies (R303), an error writes nothing but
the answer (R302), and no step stops the machine (R300). -/

namespace Sys2Proof.Machine

open Sys2Proof.Claims

/-! ## The status of a command -/

/-- What a command finds wrong with its operand or with INITED, in the order of its own rule (R138, R139, R163, R196, R197). -/
def commandStatus (s : State) : Instr → Status
  | .bcdDec8 d => if digitsValid (unpackDigits d.toNat 8) = false then .digit else .ok
  | .bcdDec10 d =>
    if digitsValid (unpackDigits d.toNat 10) = false then .digit
    else if 4294967295 < digitSum d.toNat 10 then .range else .ok
  | .tuneInt f => if 33554431 < f.toNat then .range else .ok
  | .ddsSeti f => if 33554431 < f.toNat then .range else if s.inited = false then .noinit else .ok
  | .ddsSetf _ => if s.inited = false then .noinit else .ok
  | _ => .ok

theorem digitsValid_eq_false_iff {x n : Nat} :
    digitsValid (unpackDigits x n) = false ↔ ¬ ∀ k, k < n → nibble x k ≤ 9 := by
  rw [← digitsValid_unpackDigits, Bool.not_eq_true]

/-- The meanings check in that order too: each outcome of the checks is one of the command's answers. -/
theorem exec_status (i : Instr) (s : State) :
    ∃ t, exec i s = .next t ∧ rspStatus t.rsp = (commandStatus s i).code := by
  cases i with
  | bcdDec8 d =>
    simp only [commandStatus, digitsValid_eq_false_iff]
    split_ifs with hd
    · exact ⟨_, exec_bcdDec8_of_valid hd s, rspStatus_rspWord _ _ _⟩
    · exact ⟨_, exec_bcdDec8_of_invalid hd s, rspStatus_rspWord _ _ _⟩
  | bcdDec10 d =>
    simp only [commandStatus, digitsValid_eq_false_iff]
    split_ifs with hd hr
    · exact ⟨_, exec_bcdDec10_of_above hd hr.not_ge s, rspStatus_rspWord _ _ _⟩
    · exact ⟨_, exec_bcdDec10_of_valid hd (le_of_not_gt hr) s, rspStatus_rspWord _ _ _⟩
    · exact ⟨_, exec_bcdDec10_of_invalid hd s, rspStatus_rspWord _ _ _⟩
  | tuneInt f =>
    simp only [commandStatus]
    split_ifs with hf
    · exact ⟨_, exec_tuneInt_of_above hf s, rspStatus_rspWord _ _ _⟩
    · exact ⟨_, exec_tuneInt_of_le (le_of_not_gt hf) s, rspStatus_rspWord _ _ _⟩
  | ddsSeti f =>
    simp only [commandStatus]
    split_ifs with hf hi
    · exact ⟨_, exec_ddsSeti_of_above hf s, rspStatus_rspWord _ _ _⟩
    · exact ⟨_, exec_change_of_not_inited (i := .ddsSeti f) ⟨le_of_not_gt hf, rfl⟩ hi, rspStatus_rspWord _ _ _⟩
    · exact ⟨_, exec_change_eq_ddsUpdate (i := .ddsSeti f) ⟨le_of_not_gt hf, rfl⟩ (Bool.eq_true_of_not_eq_false hi),
        rspStatus_rspWord _ _ _⟩
  | ddsSetf q =>
    simp only [commandStatus]
    split_ifs with hi
    · exact ⟨_, exec_change_of_not_inited (i := .ddsSetf q) rfl hi, rspStatus_rspWord _ _ _⟩
    · exact ⟨_, exec_change_eq_ddsUpdate (i := .ddsSetf q) rfl (Bool.eq_true_of_not_eq_false hi),
        rspStatus_rspWord _ _ _⟩
  | _ => exact ⟨_, rfl, rspStatus_rspWord _ _ _⟩

/-! ## An operand of 32 bits in the DATA field -/

theorem toNat_zeroExtend_data (v : Word32) : (v.zeroExtend 40).toNat = v.toNat :=
  BitVec.toNat_setWidth_of_le (by decide)

/-- Eight packed digits read as ten have two zeros in front (R96). -/
theorem unpackDigits_ten (d : Word32) : unpackDigits d.toNat 10 = 0 :: 0 :: unpackDigits d.toNat 8 := by
  have hd := d.isLt
  have h9 : d.toNat / 16 ^ 9 % 16 = 0 := by omega
  have h8 : d.toNat / 16 ^ 8 % 16 = 0 := by omega
  rw [unpackDigits, unpackDigits, h9, h8]

theorem digitsValid_ten (d : Word32) : digitsValid (unpackDigits d.toNat 10) = digitsValid (unpackDigits d.toNat 8) := by
  rw [unpackDigits_ten]
  rfl

/-- Eight valid digits are never above the range of ten (R138 has no RANGE). -/
theorem digitSum_ten_le {d : Word32} (h : digitsValid (unpackDigits d.toNat 8) = true) :
    digitSum d.toNat 10 ≤ 4294967295 := by
  have hlt := digitSum_lt (digitsValid_unpackDigits.1 h)
  rw [← bcdDecode_unpackDigits] at hlt
  rw [← bcdDecode_unpackDigits, unpackDigits_ten]
  simp only [bcdDecode, Nat.zero_mul, Nat.zero_add]
  omega

/-! ## The status reported -/

theorem exists_digit_iff {x n : Nat} :
    (∃ k ∈ List.range n, 9 < nibble x k) ↔ digitsValid (unpackDigits x n) = false := by
  simp [digitsValid_eq_false_iff]

theorem toNat_code_ite (p : Prop) [Decidable p] (st st' : Status) :
    (if p then st else st').code.toNat = if p then st.code.toNat else st'.code.toNat :=
  apply_ite (fun x : Status => x.code.toNat) p st st'

/-- For a word of the table only DIGIT, RANGE and NOINIT are left of R303, and they come in the order of the command's own checks. -/
theorem reportedStatus_of_decode {c : Word64} {i : Instr} (h : decode c = .instr i) (s : State) :
    reportedStatus c s = (commandStatus s i).code.toNat := by
  have hop : ¬ UnassignedOp c := by
    rw [← decode_eq_illegal_iff_unassignedOp, h]
    exact nofun
  have htable : InTable c := (exists_decode_iff_inTable c).1 ⟨i, h⟩
  rw [reportedStatus, if_neg hop, if_neg (not_not_intro htable), ← encode_of_decode h, cmdOp_encode]
  cases i with
  | bcdDec8 d =>
    simp only [exists_digit_iff, opOf, encode, cmdDataField_cmdWord, toNat_zeroExtend_data, digitsValid_ten,
      commandStatus]
    cases hd : digitsValid (unpackDigits d.toNat 8) with
    | false => simp [Status.code]
    | true => simp [(digitSum_ten_le hd).not_gt, Status.code]
  | bcdDec10 | tuneInt | ddsSeti | ddsSetf =>
    simp only [exists_digit_iff, opOf, encode, cmdDataField_cmdWord, toNat_zeroExtend_data, commandStatus,
      toNat_code_ite]
    simp [Status.code]
  | _ => simp [opOf, commandStatus, Status.code]

theorem performWord_of_instr {c : Word64} {i : Instr} (h : decode c = .instr i) (s : State) :
    performWord c s = exec i s := by
  rw [performWord, h]

/-- Settles O7, by what the word decodes to: a command's own checks, or the decoder's two rejects. -/
theorem statusReportedIsFirstInPriorityOrder : Obligations.StatusReportedIsFirstInPriorityOrder := by
  intro c s
  cases hd : decode c with
  | instr i =>
    obtain ⟨t, ht, hstatus⟩ := exec_status i s
    exact ⟨t, (performWord_of_instr hd s).trans ht, by rw [hstatus, reportedStatus_of_decode hd]⟩
  | reject x =>
    obtain ⟨t, ht, -, hstatus, -⟩ := performWord_of_reject hd s
    refine ⟨t, ht, hstatus.trans ?_⟩
    cases x with
    | illegal => exact (if_pos ((decode_eq_illegal_iff_unassignedOp c).1 hd)).symm
    | rsvd =>
      obtain ⟨hop, htable⟩ := (decode_eq_rsvd_iff c).1 hd
      exact ((if_neg hop).trans (if_pos htable)).symm

/-! ## Errors and stops -/

/-- Settles O8: an error's outcome has no events, and SEL and INITED as before. -/
theorem errorAnswerChangesNothingElse : Obligations.ErrorAnswerChangesNothingElse := by
  intro c s t h hstatus
  obtain ⟨c', st, r, es, sel, ini, he, hok, -⟩ := performWord_outcome c s
  cases he.symm.trans h
  have hst : st ≠ .ok := fun hst => hstatus ((rspStatus_rspWord _ _ _).trans ((code_eq_zero_iff st).2 hst))
  obtain ⟨rfl, rfl, rfl⟩ := hok.error hst
  rfl

/-- Settles O9, by the three kinds of step: a reset, a cycle before the first one, an edge of the two engines. -/
theorem everyStepTakesANextState : Obligations.EveryStepTakesANextState := by
  intro s
  rcases step_cases s with ⟨-, h⟩ | ⟨-, -, h⟩ | ⟨-, -, u, -, h⟩
  · exact ⟨_, h⟩
  · exact ⟨_, h⟩
  · exact ⟨_, h⟩

end Sys2Proof.Machine
end

section
/-! PROOFS. Reset (70_reset_and_hazards.md R340-R342): what a cycle with `rst` = 1 writes and shows, and the cycles before the first
one. -/

namespace Sys2Proof.Machine

/-! ## A cycle with `rst` = 1 -/

theorem cmdReady_of_reset {s : State} {p : PortIn} (hr : p.rst = true) : s.cmdReady p = false := by
  simp [State.cmdReady, State.outputs, hr]

theorem rspValid_of_reset {s : State} {p : PortIn} (hr : p.rst = true) : s.rspValid p = false := by
  simp [State.rspValid, State.outputs, hr]

/-- The state after a reset cycle is the reset state, but for the environment's side (R340, R47). -/
theorem resetEdge_passCycle_eq_resetWith (s : State) : s.resetEdge.passCycle =
    { State.resetWith s.cfg with inputs := s.inputs.tail, clock := s.clock + 1 } := rfl

theorem inv_resetEdge_passCycle {s : State} (hc : s.cfg.Legal) : Inv s.resetEdge.passCycle := by
  rw [resetEdge_passCycle_eq_resetWith]
  exact { inv_resetWith hc with job := nofun }

/-- Settles O48: reset overrides all (`step_of_reset`), the rows of R32 are those of `State.resetWith`, and `rst` = 1 masks the two
handshake outputs. -/
theorem resetCycleWritesEveryElement : Obligations.ResetCycleWritesEveryElement := by
  intro s hr
  obtain ⟨-, hrows⟩ := resetStateHasTheResetValues
  obtain ⟨hsel, hinited, hacc, hpub, hcsN, hsclk, hsdata, hgap, hsync, heng, hcmd, hrsp, hreset⟩ := hrows s.cfg
  exact ⟨s.resetEdge.passCycle, step_of_reset hr, hsel, hinited, hacc, hpub, hcsN, hsclk, hsdata, hgap, hsync, heng, hcmd,
    hrsp, rfl, hreset, cmdReady_of_reset hr, rspValid_of_reset hr⟩

/-! ## Before the first reset -/

/-- A cycle with `rst` = 0 before the first reset reads of the state the configuration, the placed levels and the count of cycles,
and of this cycle's levels `rst` alone (R342). -/
theorem step_eq_unspecified {s : State} (hb : s.beenReset = false) (hr : s.input.rst = false) :
    step s = .next (State.unspecified s.cfg s.inputs.tail (s.clock + 1)) :=
  step_before_reset hb hr

/-- Settles O49: before the first reset a step gives `State.unspecified` (`step_eq_unspecified`), which is the same for two blocks of
one configuration in one cycle; a reset cycle gives the reset values, which meet the invariant. -/
theorem beforeTheFirstResetNothingIsFixed : Obligations.BeforeTheFirstResetNothingIsFixed := by
  constructor
  · intro s hb hr
    refine ⟨_, step_eq_unspecified hb hr, rfl, rfl, rfl, State.stages_length _ _, ?_⟩
    intro s' hb' hr' hcfg hclock
    rw [step_eq_unspecified hb' hr', hcfg, hclock]
    rfl
  · intro s _ hc hr
    exact ⟨_, step_of_reset hr, inv_resetEdge_passCycle hc, resetEdge_passCycle_eq_resetWith s⟩

end Sys2Proof.Machine
end
